-- ==== Sys2Proof/Word.lean ====
section
/-! DEFINITION. The word types of the host bus and of the micro-op encoding (spec/20_memory.md R66,
spec/30_encoding.md R81 and R83). Values of the datapath are naturals, not words (spec/00_scope.md R14). -/

namespace Sys2Proof

/-- A 32-bit word: what one host access moves (R66), and what a micro-op is encoded in (R83). -/
abbrev Word := BitVec 32

/-- A byte of the host space. -/
abbrev Byte := BitVec 8

/-- A host transaction `T = {we, off, wdata}` (R81). -/
abbrev Transaction := BitVec 48

/-- A byte offset of the host space (R60). -/
abbrev Offset := BitVec 15

/-- The index of a table slot, `sel[7:0]` of a slot selector (R86, R91). -/
abbrev SlotIndex := BitVec 8

end Sys2Proof
end

