-- ==== Sys2Proof/Machine/Bits.lean ====
section
/-! DEFINITION. The number notation of spec/00_scope.md R15: bits, bit length, rounded-up quotients, and the byte order
inside a word. -/

namespace Sys2Proof.Machine

/-- `bit(v, i) = floor(v / 2^i) mod 2` (R15). -/
def bit (v i : Nat) : Nat := v / 2 ^ i % 2

/-- `bit_length(v)`: 0 for 0, else the `n` with `2^(n-1) <= v < 2^n` (R15). -/
def bitLength (v : Nat) : Nat := if v = 0 then 0 else Nat.log2 v + 1

/-- `ceil(a / b)` for `b > 0` (R32, R175). -/
def ceilDiv (a b : Nat) : Nat := (a + (b - 1)) / b

/-- The number of 32-bit words of a value, `ceil(bit_length(v) / 32)` (R32, R129). -/
def wordLength (v : Nat) : Nat := ceilDiv (bitLength v) 32

/-- Word `i` of a value, `v[32*i+31 : 32*i]` (R129). -/
def wordOf (v i : Nat) : Word := BitVec.ofNat 32 (v / 2 ^ (32 * i))

/-- Byte `j` of a word, byte 0 least significant. The order is not observable (R64; log entry 6). -/
def byteOf (v : Word) (j : Nat) : Byte := v.extractLsb' (8 * j) 8

/-- A word from its four bytes, least significant first. -/
def wordOfBytes (b0 b1 b2 b3 : Byte) : Word := b3 ++ b2 ++ b1 ++ b0

/-- A one-bit field as a word. -/
def flagWord (b : Bool) : Word := if b then 1#32 else 0#32

end Sys2Proof.Machine
end

