-- ==== Sys2Proof/Config.lean ====
section
/-! DEFINITION. What an implementation fixes (NWORDS and DIGIT_BIT), what the external kernel may answer,
and the free values: opaque constants about which nothing can be proved (spec/93_implementation_defined.md). -/

namespace Sys2Proof

/-- The implementation parameters (R9, R10). They are the content of the read-only register PARAM (R28), so each
state carries them and a statement about every state is about every instance (log entry 5). -/
structure Params where
  /-- NWORDS: the capacity of each operand memory in 32-bit words (R9). -/
  nwords   : Nat
  /-- DIGIT_BIT: the width of the native digit the exponent scan consumes (R10). -/
  digitBit : Nat
  deriving DecidableEq, Repr

/-- The ranges of R9 and R10: `1 <= NWORDS <= 1024` and `1 <= DIGIT_BIT <= 64`. -/
abbrev Params.wf (p : Params) : Prop :=
  1 ≤ p.nwords ∧ p.nwords ≤ 1024 ∧ 1 ≤ p.digitBit ∧ p.digitBit ≤ 64

/-- The spec's defaults: `NWORDS = 256` (R9) and `DIGIT_BIT = 32` (R10). -/
def Params.standard : Params := { nwords := 256, digitBit := 32 }

/-- The failure kinds (R221). -/
inductive FailKind where
  /-- Code 1: a table slot, accumulator or context could not be created. -/
  | allocation
  /-- Code 2: a kernel operation reported an internal fault. -/
  | arithmetic
  /-- Code 3: a zero modulus was passed to setup. -/
  | invalidModulus
  deriving DecidableEq, Repr

/-- An answer of the kernel failure oracle `kfail` (R13, R222). `invalidModulus` is never an answer (R224). -/
inductive KAnswer where
  | ok
  | failAllocation
  | failArithmetic
  deriving DecidableEq, Repr, Inhabited

namespace Config

/-- Free value: the kernel's answer at draw `n`, where the state lists no answer (R13, R222; log entry 3). -/
opaque kfail : Nat → KAnswer

/-- Free value: what draw `n` of a host read of a never-written word returns (R71, R100; log entry 8). -/
opaque freeWord : Nat → Word

/-- Free value: what the RAM word at an offset holds where nothing was written. It is used only where the engine reads an
operand word that R109 would have refused, in states no run reaches (log entry 10). -/
opaque ramWord : Nat → Word

/-- Free value: `a mod 0`, which R14 leaves without a result. Only SET1 in a state no run reaches asks for it
(log entry 11). -/
opaque modByZero : Nat → Nat

end Config

end Sys2Proof
end

