-- ==== Sys2Proof/Syntax.lean ====
section
/-! DEFINITION. The instructions: one constructor per row of spec/opcode_table.json, the fifteen micro-op forms of
spec/30_encoding.md R87 and the twelve host transactions of spec/40_host_commands.md. A field is a field of the
encoding that the row leaves free; bits the spec says are ignored carry no field (log entry 19). -/

namespace Sys2Proof

/-- One constructor per row of the opcode table, in the table's order. -/
inductive Instr where
  /-- `ACQ M[k]` (R121). -/
  | acqM (k : SlotIndex)
  /-- `ACQ CTX` (R121). -/
  | acqCtx
  /-- `ACQ RES` (R121). -/
  | acqRes
  /-- `SETUP CTX, P` (R122). -/
  | setup
  /-- `MOD M[1], G, P` (R123). -/
  | mod
  /-- `COPY M[mid], M[1]` (R124). -/
  | copy (mid : SlotIndex)
  /-- `SQR M[mid]` (R125). -/
  | sqrM (mid : SlotIndex)
  /-- `SQR RES` (R125). -/
  | sqrRes
  /-- `MUL M[k], M[b], M[1]` (R126). The form is admitted only with `b = k - 1`, which `Instr.admitted` checks. -/
  | mulM (k b : SlotIndex)
  /-- `MUL RES, RES, M[j]` (R126). -/
  | mulRes (j : SlotIndex)
  /-- `RED M[j], P, CTX` (R127). -/
  | redM (j : SlotIndex)
  /-- `RED RES, P, CTX` (R127). -/
  | redRes
  /-- `SET1 RES, P` (R128). -/
  | set1
  /-- `EXCH Y, RES` (R129). -/
  | exch
  /-- `RELALL` (R130). -/
  | relall
  /-- A host read, `RD off` (R100). -/
  | busRd (off : Offset)
  /-- A host write that no more specific row takes, `WR off, data` (R101). -/
  | busWr (off : Offset) (data : Word)
  /-- A CTRL write with `{CLEAR, START} = 00` (R102, R105). -/
  | cmdNone (ie : Bool)
  /-- A CTRL write with `{CLEAR, START} = 01` (R102, R103). -/
  | cmdStart (ie : Bool)
  /-- A CTRL write with `{CLEAR, START} = 10` (R102, R104). -/
  | cmdClear (ie : Bool)
  /-- A CTRL write with `{CLEAR, START} = 11` (R102). -/
  | cmdClearStart (ie : Bool)
  /-- A write of GLEN (R106). -/
  | glenWr (data : Word)
  /-- A write of XLEN (R106). -/
  | xlenWr (data : Word)
  /-- A write of PLEN (R106). -/
  | plenWr (data : Word)
  /-- A write of word `i` of the G_MEM window (R107). -/
  | gMemWr (i : BitVec 10) (data : Word)
  /-- A write of word `i` of the X_MEM window (R107). -/
  | xMemWr (i : BitVec 10) (data : Word)
  /-- A write of word `i` of the P_MEM window (R107). -/
  | pMemWr (i : BitVec 10) (data : Word)
  deriving DecidableEq, Repr

/-- Is the instruction a micro-op, which the engine issues, or else a host transaction (R80)? -/
def Instr.isUop : Instr → Bool
  | .acqM _ | .acqCtx | .acqRes | .setup | .mod | .copy _ | .sqrM _ | .sqrRes => true
  | .mulM _ _ | .mulRes _ | .redM _ | .redRes | .set1 | .exch | .relall => true
  | .busRd _ | .busWr _ _ | .cmdNone _ | .cmdStart _ | .cmdClear _ | .cmdClearStart _ => false
  | .glenWr _ | .xlenWr _ | .plenWr _ | .gMemWr _ _ | .xMemWr _ _ | .pMemWr _ _ => false

end Sys2Proof
end

