-- ==== Sys2Proof/WellFormed.lean ====
section
/-! DEFINITION. Which instructions are well formed: for a micro-op, the operand constraints of spec/30_encoding.md R87
under a window size; for a host write, that no more specific row of the opcode table takes its offset. -/

namespace Sys2Proof

/-- A window size a run can have (R11). -/
def validWindow (w : Nat) : Bool := decide (2 ≤ w) && decide (w ≤ 8)

/-- The slot index of the midpoint entry for window size `w`: `mid = 2^(w-1)` (R87). -/
def midSlot (w : Nat) : Nat := 2 ^ (w - 1)

/-- Is the offset one that a more specific write row takes: CTRL, GLEN, XLEN, PLEN or an operand window
(spec/opcode_table.json, row BUS_WR)? -/
def takenBySpecificRow (off : Offset) : Bool :=
  off.extractLsb' 2 13 == 1#13 || off.extractLsb' 2 13 == 4#13 || off.extractLsb' 2 13 == 5#13 ||
  off.extractLsb' 2 13 == 6#13 || off.extractLsb' 12 3 == 1#3 || off.extractLsb' 12 3 == 2#3 ||
  off.extractLsb' 12 3 == 3#3

/-- The constraints of R87 on the operands of an instruction, for the window size `w` of the run. A form that names a
table slot by number is admitted only once a window size is selected. A host transaction has no constraint (R90). -/
def Instr.admitted (w : Nat) : Instr → Bool
  | .acqM k => validWindow w && decide (k.toNat < 2 ^ w)
  | .copy mid => validWindow w && decide (mid.toNat = midSlot w)
  | .sqrM mid => validWindow w && decide (mid.toNat = midSlot w)
  | .mulM k b => validWindow w && decide (midSlot w < k.toNat) && decide (k.toNat < 2 ^ w) && decide (b.toNat + 1 = k.toNat)
  | .mulRes j => validWindow w && (decide (j.toNat = 1) || (decide (midSlot w ≤ j.toNat) && decide (j.toNat < 2 ^ w)))
  | .redM j => validWindow w && decide (midSlot w ≤ j.toNat) && decide (j.toNat < 2 ^ w)
  | .acqCtx | .acqRes | .setup | .mod | .sqrRes | .redRes | .set1 | .exch | .relall => true
  | .busRd _ | .busWr _ _ | .cmdNone _ | .cmdStart _ | .cmdClear _ | .cmdClearStart _ => true
  | .glenWr _ | .xlenWr _ | .plenWr _ | .gMemWr _ _ | .xMemWr _ _ | .pMemWr _ _ => true

/-- The smallest window size of R11 under which a micro-op is an admitted form, if there is one. -/
def Instr.admittingWindow (i : Instr) : Option Nat :=
  [2, 3, 4, 5, 6, 7, 8].find? (fun w => i.admitted w)

/-- Well-formed without a run in sight: a micro-op that some window size admits (R87), a host read, or a host write in the
row that takes its offset. -/
def Instr.wf : Instr → Bool
  | .busWr off _ => !takenBySpecificRow off
  | i => i.admittingWindow.isSome

end Sys2Proof
end

