-- ==== Sys2Proof/Decode.lean ====
section
/-! DEFINITION. Decoding and encoding of the two encoded forms, micro-op words and host transactions
(spec/30_encoding.md). Decoding reads the fields once. The operand constraints that depend on the window size of the run are
`Instr.admitted`, which issuing a micro-op checks (R92, R120; log entry 18). -/

namespace Sys2Proof

/-- What a selector value names (R86). -/
inductive Sel where
  | slot (k : SlotIndex)
  | res
  | ctx
  | opG
  | opX
  | opP
  | y
  deriving DecidableEq, Repr

/-- The selector a 9-bit field names, or none for the reserved values 0x106 to 0x1FF (R86). -/
def Sel.ofBits (b : BitVec 9) : Option Sel :=
  if b.extractLsb' 8 1 = 0#1 then some (.slot (b.extractLsb' 0 8))
  else if b = 0x100#9 then some .res
  else if b = 0x101#9 then some .ctx
  else if b = 0x102#9 then some .opG
  else if b = 0x103#9 then some .opX
  else if b = 0x104#9 then some .opP
  else if b = 0x105#9 then some .y
  else none

/-- The 9-bit value of a selector (R86). -/
def Sel.bits : Sel → BitVec 9
  | .slot k => 0#1 ++ k
  | .res => 0x100#9
  | .ctx => 0x101#9
  | .opG => 0x102#9
  | .opX => 0x103#9
  | .opP => 0x104#9
  | .y => 0x105#9

/-- Why a micro-op word is no form of the opcode table (R88, R89). -/
inductive Reject where
  /-- OP is 0: the word marks "no micro-op" (R89). -/
  | notAnOperation
  /-- OP is 0x0B to 0x1F (R84). -/
  | reservedOp
  /-- A field that the operation uses holds a reserved selector (R86). -/
  | reservedSelector
  /-- A field that the operation does not use is not 0 (R85). -/
  | unusedField
  /-- The selectors are no operand combination of the operation (R87). -/
  | operands
  deriving DecidableEq, Repr

/-- The answer of the micro-op decoder. -/
inductive Decoded where
  | ok (i : Instr)
  | rejected (r : Reject)
  deriving DecidableEq, Repr

/-- A form that uses field A alone: B and C must be 0 (R85). -/
def decodeA (a b c : BitVec 9) (form : Sel → Option Instr) : Decoded :=
  if b = 0#9 ∧ c = 0#9 then
    match Sel.ofBits a with
    | none => .rejected .reservedSelector
    | some sa =>
      match form sa with
      | some i => .ok i
      | none => .rejected .operands
  else .rejected .unusedField

/-- A form that uses fields A and B: C must be 0 (R85). -/
def decodeAB (a b c : BitVec 9) (form : Sel → Sel → Option Instr) : Decoded :=
  if c = 0#9 then
    match Sel.ofBits a, Sel.ofBits b with
    | some sa, some sb =>
      match form sa sb with
      | some i => .ok i
      | none => .rejected .operands
    | _, _ => .rejected .reservedSelector
  else .rejected .unusedField

/-- A form that uses all three fields. -/
def decodeABC (a b c : BitVec 9) (form : Sel → Sel → Sel → Option Instr) : Decoded :=
  match Sel.ofBits a, Sel.ofBits b, Sel.ofBits c with
  | some sa, some sb, some sc =>
    match form sa sb sc with
    | some i => .ok i
    | none => .rejected .operands
  | _, _, _ => .rejected .reservedSelector

/-- The operand combinations of ACQ (R87). -/
def formAcq : Sel → Option Instr
  | .slot k => some (.acqM k)
  | .ctx => some .acqCtx
  | .res => some .acqRes
  | _ => none

/-- The operand combination of SETUP (R87). -/
def formSetup : Sel → Sel → Option Instr
  | .ctx, .opP => some .setup
  | _, _ => none

/-- The operand combination of MOD (R87). -/
def formMod : Sel → Sel → Sel → Option Instr
  | .slot k, .opG, .opP => if k = 1#8 then some .mod else none
  | _, _, _ => none

/-- The operand combination of COPY (R87). -/
def formCopy : Sel → Sel → Option Instr
  | .slot mid, .slot j => if j = 1#8 then some (.copy mid) else none
  | _, _ => none

/-- The operand combinations of SQR (R87). -/
def formSqr : Sel → Option Instr
  | .slot mid => some (.sqrM mid)
  | .res => some .sqrRes
  | _ => none

/-- The operand combinations of MUL (R87). -/
def formMul : Sel → Sel → Sel → Option Instr
  | .slot k, .slot b, .slot j => if j = 1#8 then some (.mulM k b) else none
  | .res, .res, .slot j => some (.mulRes j)
  | _, _, _ => none

/-- The operand combinations of RED (R87). -/
def formRed : Sel → Sel → Sel → Option Instr
  | .slot j, .opP, .ctx => some (.redM j)
  | .res, .opP, .ctx => some .redRes
  | _, _, _ => none

/-- The operand combination of SET1 (R87). -/
def formSet1 : Sel → Sel → Option Instr
  | .res, .opP => some .set1
  | _, _ => none

/-- The operand combination of EXCH (R87). -/
def formExch : Sel → Sel → Option Instr
  | .y, .res => some .exch
  | _, _ => none

/-- Decoding by fields: OP selects the operation (R84), A, B and C its operands (R87). -/
def decodeFields (op : BitVec 5) (a b c : BitVec 9) : Decoded :=
  if op = 0x00#5 then .rejected .notAnOperation
  else if op = 0x01#5 then decodeA a b c formAcq
  else if op = 0x02#5 then decodeAB a b c formSetup
  else if op = 0x03#5 then decodeABC a b c formMod
  else if op = 0x04#5 then decodeAB a b c formCopy
  else if op = 0x05#5 then decodeA a b c formSqr
  else if op = 0x06#5 then decodeABC a b c formMul
  else if op = 0x07#5 then decodeABC a b c formRed
  else if op = 0x08#5 then decodeAB a b c formSet1
  else if op = 0x09#5 then decodeAB a b c formExch
  else if op = 0x0A#5 then
    if a = 0#9 ∧ b = 0#9 ∧ c = 0#9 then .ok .relall else .rejected .unusedField
  else .rejected .reservedOp

/-- Decoding a micro-op word: `OP = u[31:27]`, `A = u[26:18]`, `B = u[17:9]`, `C = u[8:0]` (R83, R92). -/
def decodeUop (u : Word) : Decoded :=
  decodeFields (u.extractLsb' 27 5) (u.extractLsb' 18 9) (u.extractLsb' 9 9) (u.extractLsb' 0 9)

/-- Decoding a CTRL write by `{CLEAR, START} = wdata[1:0]`, with `IE = wdata[2]` and the rest ignored (R82, R90). -/
def decodeCtrl (data : Word) : Instr :=
  let ie := data.extractLsb' 2 1 == 1#1
  if data.extractLsb' 0 2 = 0b00#2 then .cmdNone ie
  else if data.extractLsb' 0 2 = 0b01#2 then .cmdStart ie
  else if data.extractLsb' 0 2 = 0b10#2 then .cmdClear ie
  else .cmdClearStart ie

/-- Decoding a host write: the most specific row of the opcode table that takes the offset, else BUS_WR. `off[1:0]` is
ignored (R65, R81). -/
def decodeWrite (off : Offset) (data : Word) : Instr :=
  if off.extractLsb' 2 13 = 1#13 then decodeCtrl data
  else if off.extractLsb' 2 13 = 4#13 then .glenWr data
  else if off.extractLsb' 2 13 = 5#13 then .xlenWr data
  else if off.extractLsb' 2 13 = 6#13 then .plenWr data
  else if off.extractLsb' 12 3 = 1#3 then .gMemWr (off.extractLsb' 2 10) data
  else if off.extractLsb' 12 3 = 2#3 then .xMemWr (off.extractLsb' 2 10) data
  else if off.extractLsb' 12 3 = 3#3 then .pMemWr (off.extractLsb' 2 10) data
  else .busWr off data

/-- Decoding a host transaction: `we = T[47]`, `off = T[46:32]`, `wdata = T[31:0]` (R81). Every transaction decodes
(R90). A read takes no data, so `wdata` of a read is not looked at (log entry 19). -/
def decodeHost (t : Transaction) : Instr :=
  if t.extractLsb' 47 1 = 0#1 then .busRd (t.extractLsb' 32 15)
  else decodeWrite (t.extractLsb' 32 15) (t.extractLsb' 0 32)

/-- The instruction that this decoder reads from the word `w` of a row of `nbits` bits: 32 for a micro-op word, 48 for a
host transaction, the two fixed lengths of R80. -/
def decodeTableWord (nbits w : Nat) : Option Instr :=
  if nbits = 32 then
    match decodeUop (BitVec.ofNat 32 w) with
    | .ok i => some i
    | .rejected _ => none
  else if nbits = 48 then some (decodeHost (BitVec.ofNat 48 w))
  else none

/-- An encoded instruction, in one of the two encoded forms (R80). -/
inductive Encoded where
  | uop (u : Word)
  | host (t : Transaction)
  deriving DecidableEq, Repr

/-- A micro-op word from its fields (R83). -/
def packUop (op : BitVec 5) (a b c : BitVec 9) : Word := op ++ a ++ b ++ c

/-- A host transaction from its fields (R81). -/
def packHost (we : BitVec 1) (off : Offset) (data : Word) : Transaction := we ++ off ++ data

/-- A CTRL write with the given command bits (R82). -/
def packCtrl (clearStart : BitVec 2) (ie : Bool) : Transaction :=
  packHost 1#1 0x0004#15 (0#29 ++ BitVec.ofBool ie ++ clearStart)

/-- A write of word `i` of the operand window `off[14:12] = window` (R61, R107). -/
def packMem (window : BitVec 3) (i : BitVec 10) (data : Word) : Transaction :=
  packHost 1#1 (window ++ i ++ 0#2) data

/-- The encoding of an instruction, from the form table R87 and the host transaction format R81, with ignored bits 0. -/
def encode : Instr → Encoded
  | .acqM k => .uop (packUop 0x01#5 (Sel.slot k).bits 0#9 0#9)
  | .acqCtx => .uop (packUop 0x01#5 Sel.ctx.bits 0#9 0#9)
  | .acqRes => .uop (packUop 0x01#5 Sel.res.bits 0#9 0#9)
  | .setup => .uop (packUop 0x02#5 Sel.ctx.bits Sel.opP.bits 0#9)
  | .mod => .uop (packUop 0x03#5 (Sel.slot 1#8).bits Sel.opG.bits Sel.opP.bits)
  | .copy mid => .uop (packUop 0x04#5 (Sel.slot mid).bits (Sel.slot 1#8).bits 0#9)
  | .sqrM mid => .uop (packUop 0x05#5 (Sel.slot mid).bits 0#9 0#9)
  | .sqrRes => .uop (packUop 0x05#5 Sel.res.bits 0#9 0#9)
  | .mulM k b => .uop (packUop 0x06#5 (Sel.slot k).bits (Sel.slot b).bits (Sel.slot 1#8).bits)
  | .mulRes j => .uop (packUop 0x06#5 Sel.res.bits Sel.res.bits (Sel.slot j).bits)
  | .redM j => .uop (packUop 0x07#5 (Sel.slot j).bits Sel.opP.bits Sel.ctx.bits)
  | .redRes => .uop (packUop 0x07#5 Sel.res.bits Sel.opP.bits Sel.ctx.bits)
  | .set1 => .uop (packUop 0x08#5 Sel.res.bits Sel.opP.bits 0#9)
  | .exch => .uop (packUop 0x09#5 Sel.y.bits Sel.res.bits 0#9)
  | .relall => .uop (packUop 0x0A#5 0#9 0#9 0#9)
  | .busRd off => .host (packHost 0#1 off 0#32)
  | .busWr off data => .host (packHost 1#1 off data)
  | .cmdNone ie => .host (packCtrl 0b00#2 ie)
  | .cmdStart ie => .host (packCtrl 0b01#2 ie)
  | .cmdClear ie => .host (packCtrl 0b10#2 ie)
  | .cmdClearStart ie => .host (packCtrl 0b11#2 ie)
  | .glenWr data => .host (packHost 1#1 0x0010#15 data)
  | .xlenWr data => .host (packHost 1#1 0x0014#15 data)
  | .plenWr data => .host (packHost 1#1 0x0018#15 data)
  | .gMemWr i data => .host (packMem 1#3 i data)
  | .xMemWr i data => .host (packMem 2#3 i data)
  | .pMemWr i data => .host (packMem 3#3 i data)

/-- The micro-op word of an instruction, which LAST_UOP and ERR_UOP record. A host transaction has none: word 0 (R89). -/
def uopWord (i : Instr) : Word :=
  match encode i with
  | .uop u => u
  | .host _ => 0#32

/-- Decoding either encoded form. -/
def decode : Encoded → Decoded
  | .uop u => decodeUop u
  | .host t => .ok (decodeHost t)

end Sys2Proof
end

