-- ==== Sys2Proof/Machine/State.lean ====
section
/-! DEFINITION. The state of the block: every piece spec/10_state.md names, the memories of spec/20_memory.md, and the inputs
of the three agents of R5 as plain data. The faults are the model faults of spec/60_exceptions.md R236. -/

namespace Sys2Proof.Machine

/-- A resource that can be acquired, and at the same time a register of the datapath file `x` (R20, R33). -/
inductive Reg where
  /-- Table slot `M[k]` (R23). -/
  | slot (k : SlotIndex)
  /-- The accumulator (R24). -/
  | res
  /-- The Barrett context (R25). -/
  | ctx
  deriving DecidableEq, Repr

/-- One of the operand memories that the host writes (R62). -/
inductive Operand where
  | g
  | x
  | p
  deriving DecidableEq, Repr

/-- The sequencer position `seq`, the program-counter analogue (R36). -/
inductive Seq where
  | idle
  | select
  | run (i : Nat)
  | cleanup
  | done
  | error
  deriving DecidableEq, Repr

/-- The mode of the exponent scan (R38). -/
inductive Mode where
  | skipLeadingZeros
  | squaring
  | accumulating
  deriving DecidableEq, Repr

/-- The exponent scan state (R38). -/
structure ScanState where
  mode                 : Mode
  windowAccum          : Nat
  windowBitCount       : Nat
  digitIndex           : Int
  digitBuffer          : Nat
  remainingBitsInDigit : Nat
  deriving DecidableEq, Repr

/-- One element of the interleaving of atomic steps (R72, R260): which agent moves, and for the host with which
transaction. -/
inductive Turn where
  | host (t : Transaction)
  | engine
  | reset
  deriving DecidableEq, Repr

/-- The model faults of R236. The spec stops the model there (R235), where the block has no behaviour it gives. All are
safe: the model stops where the hardware would go on. A fault carries no state (log entry 21). -/
inductive Fault where
  /-- Raised by CMD_START, CMD_CLEAR_START and a CTRL write through BUS_WR, when START is accepted and an operand word below
  its length was never written (R109). Safe. -/
  | unwrittenOperand
  /-- Raised by every micro-op whose operands R87 does not admit for the window size of the run, and by an engine step whose
  word decodes to none (R88). Safe. -/
  | illegalUop
  /-- Raised by every micro-op but ACQ and RELALL that names a slot, RES or CTX not held (R131). Safe. -/
  | notHeld
  /-- Raised by ACQ_M, ACQ_CTX and ACQ_RES when the resource is already held (R131). Safe. -/
  | doubleAcquire
  /-- Raised by COPY, SQR, MUL, RED and EXCH when a source register is not populated (R22). Safe. -/
  | unpopulatedRead
  /-- Raised by RED_M and RED_RES when the input is at least `op(P)^2` (R203). Safe. -/
  | reduceDomain
  /-- Raised by RED_M and RED_RES when `x[CTX]` is not the context of `op(P)` (R203). Safe. -/
  | ctxMismatch
  deriving DecidableEq, Repr

/-- The refusals. -/
inductive Refusal where
  /-- An arm of `exec` that has no meaning yet. No arm raises it: every instruction of the table has its meaning. Safe. -/
  | notModelled (mnemonic : String)
  deriving DecidableEq, Repr

/-- The state of the block and of the inputs that drive it. -/
@[ext]
structure State where
  /-- NWORDS and DIGIT_BIT, the content of PARAM (R9, R10, R28). No step changes them. -/
  params  : Params
  /-- CTRL.IE (R29). -/
  ie      : Bool
  /-- STATUS.BUSY_WR (R30). -/
  busyWr  : Bool
  /-- STATUS.ERR, none for code 0 (R30, R221). -/
  err     : Option FailKind
  /-- GLEN (R31). -/
  glen    : Word
  /-- XLEN (R31). -/
  xlen    : Word
  /-- PLEN (R31). -/
  plen    : Word
  /-- YLEN (R32). -/
  ylen    : Word
  /-- SQR_CNT (R34). -/
  sqrCnt  : Word
  /-- MUL_CNT (R34). -/
  mulCnt  : Word
  /-- RED_CNT (R34). -/
  redCnt  : Word
  /-- LAST_UOP (R35). -/
  lastUop : Word
  /-- ERR_UOP (R35). -/
  errUop  : Word
  /-- The held set, as a list with no repeats in the order of acquisition (R33). LIVE reads its length. -/
  held    : List Reg
  /-- The table slots `x[M[k]]`. A slot is none where its `populated` bit is 0 (R20, R22). -/
  slots   : Vector (Option Nat) 256
  /-- `x[RES]`, none where its `populated` bit is 0 (R22, R24). -/
  res     : Option Nat
  /-- `x[CTX]`, none where its `populated` bit is 0. A context is represented by its modulus (R22, R25, R201). -/
  ctx     : Option Nat
  /-- The sequencer position (R36). -/
  seq     : Seq
  /-- The window size `w`, mirrored in STATUS.WSIZE, with 0 for unset (R39, R43). -/
  w       : Nat
  /-- The issue program of the run, written by the Select step (R151, R186). -/
  prog    : List Word
  /-- The exponent scan state (R38). -/
  scan    : ScanState
  /-- G_MEM, X_MEM, P_MEM and Y_MEM at their offsets in the host space (R61, R62). A byte that nothing has written since
  reset is not listed, so a word's `written` bit is that its bytes are listed (R42, R71). -/
  mem     : List Host.Cell
  /-- The model's own: `rdata` of the last host read (R81). -/
  rdata   : Word
  /-- The model's own: the interleaving still to come (R72). -/
  turns   : List Turn
  /-- The model's own: the kernel's answers still to come (R13). -/
  kernel  : List KAnswer
  /-- The model's own: how many free values have been drawn. -/
  draws   : Nat
  deriving DecidableEq, Repr

/-- The scan state where no scan has begun. R43 leaves it unspecified: the values of R173 for `used(X) = 0`. -/
def ScanState.initial : ScanState where
  mode := .skipLeadingZeros
  windowAccum := 0
  windowBitCount := 0
  digitIndex := -1
  digitBuffer := 0
  remainingBitsInDigit := 0

/-- The state of an instance with parameters `p` right after reset (R43), with no input given yet. -/
def State.resetOf (p : Params) : State where
  params := p
  ie := false
  busyWr := false
  err := none
  glen := 0#32
  xlen := 0#32
  plen := 0#32
  ylen := 0#32
  sqrCnt := 0#32
  mulCnt := 0#32
  redCnt := 0#32
  lastUop := 0#32
  errUop := 0#32
  held := []
  slots := Vector.replicate 256 none
  res := none
  ctx := none
  seq := .idle
  w := 0
  prog := []
  scan := ScanState.initial
  mem := []
  rdata := 0#32
  turns := []
  kernel := []
  draws := 0

/-- The machine right after reset, with the spec's default parameters (R9, R10, R43). -/
def State.reset : State := State.resetOf Params.standard

end Sys2Proof.Machine
end

