-- ==== Sys2Proof/Machine/Ops.lean ====
section
/-! DEFINITION. The named operations over memory, registers and resources; the kernel's answers and the free draws; entering
a failure, advancing the sequencer and acknowledging a finished run. -/

namespace Sys2Proof.Machine

/-! ## Memory: bytes at offsets of the host space, in rising order of offset -/

/-- The canonical form of a memory: offsets strictly rising. An unlisted byte reads as no value, so no entry can equal what
an unlisted one reads as. -/
abbrev Memory.wf (m : List Host.Cell) : Prop := (m.map Prod.fst).Pairwise (· < ·)

/-- The byte at an offset, none where nothing was written since reset. -/
def Memory.loadByte : List Host.Cell → Nat → Option Byte
  | [], _ => none
  | c :: rest, a => if c.1 = a then some c.2 else Memory.loadByte rest a

/-- Write one byte, keeping the canonical form. -/
def Memory.storeByte : List Host.Cell → Nat → Byte → List Host.Cell
  | [], a, b => [(a, b)]
  | c :: rest, a, b =>
    if a < c.1 then (a, b) :: c :: rest
    else if a = c.1 then (a, b) :: rest
    else c :: Memory.storeByte rest a b

/-- The word at offset `a`, none where it was never written: the `written` bit is that a value is there (R42). -/
def Memory.loadWord (m : List Host.Cell) (a : Nat) : Option Word :=
  match Memory.loadByte m a, Memory.loadByte m (a + 1), Memory.loadByte m (a + 2), Memory.loadByte m (a + 3) with
  | some b0, some b1, some b2, some b3 => some (wordOfBytes b0 b1 b2 b3)
  | _, _, _, _ => none

/-- Write the word at offset `a`. -/
def Memory.storeWord (m : List Host.Cell) (a : Nat) (v : Word) : List Host.Cell :=
  Memory.storeByte (Memory.storeByte (Memory.storeByte (Memory.storeByte m a (byteOf v 0)) (a + 1) (byteOf v 1))
    (a + 2) (byteOf v 2)) (a + 3) (byteOf v 3)

/-- Write words `0 .. n-1` of the value `v` from offset `base` on (R129). -/
def Memory.storeWords (m : List Host.Cell) (base v : Nat) : Nat → List Host.Cell
  | 0 => m
  | n + 1 => Memory.storeWord (Memory.storeWords m base v n) (base + 4 * n) (wordOf v n)

/-! ## The operand memories (R61 to R63) -/

/-- The first offset of an operand window (R61). -/
def Operand.base : Operand → Nat
  | .g => 0x1000
  | .x => 0x2000
  | .p => 0x3000

/-- The first offset of Y_MEM (R61). -/
def yBase : Nat := 0x4000

/-- The length of an operand in words: GLEN, XLEN or PLEN (R31). -/
def State.len (s : State) : Operand → Word
  | .g => s.glen
  | .x => s.xlen
  | .p => s.plen

/-- Write an operand's length register. -/
def State.setLen (s : State) (a : Operand) (v : Word) : State :=
  match a with
  | .g => { s with glen := v }
  | .x => { s with xlen := v }
  | .p => { s with plen := v }

/-- The value that the words `0 .. n-1` from offset `base` on hold, word 0 least significant (R63). A word that nothing
wrote holds what the RAM holds, a free value (log entry 10). -/
def Memory.value (m : List Host.Cell) (base : Nat) : Nat → Nat
  | 0 => 0
  | n + 1 =>
    Memory.value m base n + ((Memory.loadWord m (base + 4 * n)).getD (Config.ramWord (base + 4 * n))).toNat * 2 ^ (32 * n)

/-- `op(A)`: the operand's value (R63). -/
def State.op (s : State) (a : Operand) : Nat := Memory.value s.mem a.base (s.len a).toNat

/-- Were the words `0 .. n-1` from offset `base` on all written (R42)? -/
def Memory.allWritten (m : List Host.Cell) (base : Nat) : Nat → Bool
  | 0 => true
  | n + 1 => Memory.allWritten m base n && (Memory.loadWord m (base + 4 * n)).isSome

/-- Is every word below its operand's length written (R109)? -/
def State.operandsWritten (s : State) : Bool :=
  [Operand.g, Operand.x, Operand.p].all fun a => Memory.allWritten s.mem a.base (s.len a).toNat

/-! ## The datapath registers and the held set (R20 to R26, R33) -/

/-- `x[r]`, none where the register is not populated (R20, R22). -/
def State.readReg (s : State) : Reg → Option Nat
  | .slot k => s.slots[k.toNat]
  | .res => s.res
  | .ctx => s.ctx

/-- Put a value, or no value, in a register. -/
def State.putReg (s : State) (r : Reg) (v : Option Nat) : State :=
  match r with
  | .slot k => { s with slots := s.slots.set k.toNat v }
  | .res => { s with res := v }
  | .ctx => { s with ctx := v }

/-- `x[r] <- v`, which sets the `populated` bit (R22). -/
def State.writeReg (s : State) (r : Reg) (v : Nat) : State := s.putReg r (some v)

/-- `populated[r] <- 0` (R22). -/
def State.depopulate (s : State) (r : Reg) : State := s.putReg r none

/-- The value of a source register. Issuing a micro-op asks for it only once R131 has found the register populated. -/
def State.regValue (s : State) (r : Reg) : Nat := (s.readReg r).getD 0

/-- Is the resource held (R33)? -/
def State.holds (s : State) (r : Reg) : Bool := s.held.contains r

/-- LIVE: the number of held resources (R33). -/
def State.live (s : State) : Nat := s.held.length

/-- `held <- held + {r}; populated[r] <- 0` (R121; log entry 31 for the order). -/
def State.acquire (s : State) (r : Reg) : State := { s.depopulate r with held := s.held ++ [r] }

/-- `held <- {}`, and every register unpopulated (R130). -/
def State.releaseAll (s : State) : State :=
  { s with held := [], slots := Vector.replicate 256 none, res := none, ctx := none }

/-- `a mod m`. R14 gives it for `m > 0` only, so for 0 it is a free value (log entry 11). -/
def modulo (a m : Nat) : Nat := if m = 0 then Config.modByZero a else a % m

/-- `ctx_of(m)`, represented by the modulus itself, as R201 allows (log entry 13). -/
def ctxOf (m : Nat) : Nat := m

/-- The value contract of the reduction pipe for `m >= 1`, `c = ctx_of(m)` and `x < m^2` (R202). -/
def barrettReduce (x m : Nat) (_c : Nat) : Nat := modulo x m

/-! ## The kernel's answers and the free draws (R13, R71) -/

/-- The answer `kfail` gives to the next fallible micro-op (R13). -/
def State.kernelAnswer (s : State) : KAnswer :=
  match s.kernel with
  | a :: _ => a
  | [] => Config.kfail s.draws

/-- The state once the kernel has answered. -/
def State.takeAnswer (s : State) : State :=
  match s.kernel with
  | _ :: rest => { s with kernel := rest }
  | [] => { s with draws := s.draws + 1 }

/-! ## Sequencing and failure -/

/-- Entering a failure of micro-op word `u`: the code and the word are recorded, a destination register loses its value, and
the sequencer goes to Cleanup (R226). It stands for the entry of an exception; there is no vector (R232). -/
def State.enterFailure (s : State) (kind : FailKind) (u : Word) (dest : Option Reg) : State :=
  { (match dest with
     | some d => s.depopulate d
     | none => s) with
    err := some kind, errUop := u, seq := .cleanup }

/-- Where the sequencer goes when the micro-op at its position succeeded: to the next entry, or to Done past the last, and
from Cleanup to Error (R37, R120, R227). In other positions, where no micro-op is issued, it stays (log entry 32). -/
def State.nextSeq (s : State) : Seq :=
  match s.seq with
  | .run i => if i + 1 < s.prog.length then .run (i + 1) else .done
  | .cleanup => .error
  | q => q

/-- `seq` moves past a micro-op that succeeded (R37). -/
def State.advance (s : State) : State := { s with seq := s.nextSeq }

/-- What an accepted CLEAR does: the finished run is acknowledged. It is how the block leaves a failure, since there is no
trap return (R104, R232). -/
def State.acknowledge (s : State) : State :=
  { s with seq := .idle, err := none, errUop := 0#32, busyWr := false }

/-- `LAST_UOP <- u` (R35, R120). -/
def State.setLastUop (s : State) (u : Word) : State := { s with lastUop := u }

/-- The reset event: every piece of the block's state takes its reset value (R260, R261). The instance keeps its parameters
(R28), and what is not the block's stays: the inputs to come, the draws made and the last value a host read
(log entry 25). -/
def State.onReset (s : State) : State :=
  { State.resetOf s.params with rdata := s.rdata, turns := s.turns, kernel := s.kernel, draws := s.draws }

end Sys2Proof.Machine
end

