-- ==== Sys2Proof/Machine/Flags.lean ====
section
/-! DEFINITION. The flags and the host-visible register values: STATUS and its fields, the interrupt output, CTRL, PARAM, and
the operation counters (spec/10_state.md R27 to R35, R41). -/

namespace Sys2Proof.Machine

/-- `STATUS.STATE` as a function of the sequencer position: 0 IDLE, 1 BUSY, 2 DONE, 3 ERROR (R30, R36). -/
def Seq.stateCode : Seq → Word
  | .idle => 0#32
  | .select | .run _ | .cleanup => 1#32
  | .done => 2#32
  | .error => 3#32

/-- Is STATE = BUSY (R36)? -/
def State.busy (s : State) : Bool :=
  match s.seq with
  | .select | .run _ | .cleanup => true
  | .idle | .done | .error => false

/-- Is STATE in {DONE, ERROR} (R233)? -/
def State.finished (s : State) : Bool :=
  match s.seq with
  | .done | .error => true
  | .idle | .select | .run _ | .cleanup => false

/-- The interrupt output, `CTRL.IE and STATE in {DONE, ERROR}`, mirrored in `STATUS.IRQ` (R30, R233). -/
def State.irq (s : State) : Bool := s.ie && s.finished

/-- The code of a failure kind (R221). -/
def failCode : FailKind → Word
  | .allocation => 1#32
  | .arithmetic => 2#32
  | .invalidModulus => 3#32

/-- `STATUS.ERR` (R30, R221). -/
def State.errCode (s : State) : Word :=
  match s.err with
  | none => 0#32
  | some k => failCode k

/-- The value STATUS reads: `STATE | (ERR << 4) | (WSIZE << 8) | (BUSY_WR << 12) | (IRQ << 13)` (R108). -/
def State.statusWord (s : State) : Word :=
  s.seq.stateCode ||| s.errCode <<< 4 ||| BitVec.ofNat 32 s.w <<< 8 ||| flagWord s.busyWr <<< 12 |||
    flagWord s.irq <<< 13

/-- The value CTRL reads: IE in bit 2, the write-one-to-act bits 0 (R29). -/
def State.ctrlWord (s : State) : Word := flagWord s.ie <<< 2

/-- The value PARAM reads: `PARAM[15:0] = NWORDS`, `PARAM[23:16] = DIGIT_BIT`, the rest 0 (R28). -/
def paramWord (p : Params) : Word := 0#8 ++ BitVec.ofNat 8 p.digitBit ++ BitVec.ofNat 16 p.nwords

/-- The identification value, "MEXP" in ASCII (R4, R28). -/
def idWord : Word := 0x4D455850#32

/-- `SQR_CNT <- SQR_CNT + 1`, wrapping at `2^32` (R34, R120). -/
def State.countSqr (s : State) : State := { s with sqrCnt := s.sqrCnt + 1#32 }

/-- `MUL_CNT <- MUL_CNT + 1`, wrapping at `2^32` (R34, R120). -/
def State.countMul (s : State) : State := { s with mulCnt := s.mulCnt + 1#32 }

/-- `RED_CNT <- RED_CNT + 1`, wrapping at `2^32` (R34, R120). -/
def State.countRed (s : State) : State := { s with redCnt := s.redCnt + 1#32 }

/-- `STATUS.BUSY_WR <- 1`: a host write was dropped because the block is busy (R69). -/
def State.dropWrite (s : State) : State := { s with busyWr := true }

/-- `CTRL.IE <- b` (R105). -/
def State.setIe (s : State) (b : Bool) : State := { s with ie := b }

end Sys2Proof.Machine
end

