-- ==== Sys2Proof/Machine/Operands.lean ====
section
/-! DEFINITION. The operand forms: where a host offset leads (spec/20_memory.md R61), what each host register reads, and for
each micro-op the resources it names, the registers it reads and the register it writes (spec/41_datapath_uops.md). -/

namespace Sys2Proof.Machine

/-! ## Host offsets -/

/-- The host registers, in the order of their offsets (R27). -/
inductive HostReg where
  | id
  | ctrl
  | status
  | param
  | glen
  | xlen
  | plen
  | ylen
  | live
  | sqrCnt
  | mulCnt
  | redCnt
  | lastUop
  | errUop
  deriving DecidableEq, Repr

/-- Where an access goes (R61). -/
inductive Target where
  | reg (r : HostReg)
  /-- Word `i < NWORDS` of an operand memory. -/
  | mem (a : Operand) (i : Nat)
  /-- Word `i < NWORDS` of Y_MEM. -/
  | yMem (i : Nat)
  | reserved
  deriving DecidableEq, Repr

/-- The register at word index `off / 4` of the register region (R27, R61). -/
def hostRegAt : Nat → Option HostReg
  | 0 => some .id
  | 1 => some .ctrl
  | 2 => some .status
  | 3 => some .param
  | 4 => some .glen
  | 5 => some .xlen
  | 6 => some .plen
  | 7 => some .ylen
  | 8 => some .live
  | 9 => some .sqrCnt
  | 10 => some .mulCnt
  | 11 => some .redCnt
  | 12 => some .lastUop
  | 13 => some .errUop
  | _ => none

/-- The host space map (R61). `off[1:0]` is ignored (R65), and the words `i >= NWORDS` of a window are reserved. -/
def hostTarget (p : Params) (off : Offset) : Target :=
  let window := off.extractLsb' 12 3
  let i := (off.extractLsb' 2 10).toNat
  if window = 0#3 then
    match hostRegAt i with
    | some r => .reg r
    | none => .reserved
  else if p.nwords ≤ i then .reserved
  else if window = 1#3 then .mem .g i
  else if window = 2#3 then .mem .x i
  else if window = 3#3 then .mem .p i
  else if window = 4#3 then .yMem i
  else .reserved

/-- The current value of a host register (R27 to R35). -/
def State.hostReg (s : State) : HostReg → Word
  | .id => idWord
  | .ctrl => s.ctrlWord
  | .status => s.statusWord
  | .param => paramWord s.params
  | .glen => s.glen
  | .xlen => s.xlen
  | .plen => s.plen
  | .ylen => s.ylen
  | .live => BitVec.ofNat 32 s.live
  | .sqrCnt => s.sqrCnt
  | .mulCnt => s.mulCnt
  | .redCnt => s.redCnt
  | .lastUop => s.lastUop
  | .errUop => s.errUop

/-- What a host read of a target returns, none where it returns a free draw (R67, R71, R100). -/
def State.readTarget (s : State) : Target → Option Word
  | .reg r => some (s.hostReg r)
  | .mem a i => Memory.loadWord s.mem (a.base + 4 * i)
  | .yMem i => Memory.loadWord s.mem (yBase + 4 * i)
  | .reserved => some 0#32

/-! ## Micro-op operands -/

/-- The resource an ACQ acquires (R121). -/
def acquired : Instr → Option Reg
  | .acqM k => some (.slot k)
  | .acqCtx => some .ctx
  | .acqRes => some .res
  | .setup | .mod | .copy _ | .sqrM _ | .sqrRes | .mulM _ _ => none
  | .mulRes _ | .redM _ | .redRes | .set1 | .exch | .relall => none
  | .busRd _ | .busWr _ _ | .cmdNone _ | .cmdStart _ | .cmdClear _ | .cmdClearStart _ => none
  | .glenWr _ | .xlenWr _ | .plenWr _ | .gMemWr _ _ | .xMemWr _ _ | .pMemWr _ _ => none

/-- The table slots, RES and CTX that a micro-op other than ACQ and RELALL names (R87, R131). -/
def named : Instr → List Reg
  | .setup => [.ctx]
  | .mod => [.slot 1#8]
  | .copy mid => [.slot mid, .slot 1#8]
  | .sqrM mid => [.slot mid]
  | .sqrRes => [.res]
  | .mulM k b => [.slot k, .slot b, .slot 1#8]
  | .mulRes j => [.res, .slot j]
  | .redM j => [.slot j, .ctx]
  | .redRes => [.res, .ctx]
  | .set1 => [.res]
  | .exch => [.res]
  | .acqM _ | .acqCtx | .acqRes | .relall => []
  | .busRd _ | .busWr _ _ | .cmdNone _ | .cmdStart _ | .cmdClear _ | .cmdClearStart _ => []
  | .glenWr _ | .xlenWr _ | .plenWr _ | .gMemWr _ _ | .xMemWr _ _ | .pMemWr _ _ => []

/-- The registers a micro-op reads; for SQR and RED the destination is one (R131). -/
def sources : Instr → List Reg
  | .copy _ => [.slot 1#8]
  | .sqrM mid => [.slot mid]
  | .sqrRes => [.res]
  | .mulM _ b => [.slot b, .slot 1#8]
  | .mulRes j => [.res, .slot j]
  | .redM j => [.slot j, .ctx]
  | .redRes => [.res, .ctx]
  | .exch => [.res]
  | .acqM _ | .acqCtx | .acqRes | .setup | .mod | .set1 | .relall => []
  | .busRd _ | .busWr _ _ | .cmdNone _ | .cmdStart _ | .cmdClear _ | .cmdClearStart _ => []
  | .glenWr _ | .xlenWr _ | .plenWr _ | .gMemWr _ _ | .xMemWr _ _ | .pMemWr _ _ => []

/-- The destination register a micro-op writes, which a failure leaves without a value (R226). -/
def destination : Instr → Option Reg
  | .setup => some .ctx
  | .mod => some (.slot 1#8)
  | .copy mid => some (.slot mid)
  | .sqrM mid => some (.slot mid)
  | .sqrRes => some .res
  | .mulM k _ => some (.slot k)
  | .mulRes _ => some .res
  | .redM j => some (.slot j)
  | .redRes => some .res
  | .set1 => some .res
  | .acqM _ | .acqCtx | .acqRes | .exch | .relall => none
  | .busRd _ | .busWr _ _ | .cmdNone _ | .cmdStart _ | .cmdClear _ | .cmdClearStart _ => none
  | .glenWr _ | .xlenWr _ | .plenWr _ | .gMemWr _ _ | .xMemWr _ _ | .pMemWr _ _ => none

/-- The register a RED reduces (R127). -/
def reduced : Instr → Option Reg
  | .redM j => some (.slot j)
  | .redRes => some .res
  | .acqM _ | .acqCtx | .acqRes | .setup | .mod | .copy _ => none
  | .sqrM _ | .sqrRes | .mulM _ _ | .mulRes _ | .set1 | .exch | .relall => none
  | .busRd _ | .busWr _ _ | .cmdNone _ | .cmdStart _ | .cmdClear _ | .cmdClearStart _ => none
  | .glenWr _ | .xlenWr _ | .plenWr _ | .gMemWr _ _ | .xMemWr _ _ | .pMemWr _ _ => none

/-- The failure a kernel answer means for a micro-op: the kinds of R222 and no others. ACQ and COPY fail with
AllocationFailure alone (log entry 4). -/
def kernelFailure (i : Instr) : KAnswer → Option FailKind
  | .ok => none
  | .failAllocation => some .allocation
  | .failArithmetic =>
    match i with
    | .acqM _ | .acqCtx | .acqRes | .copy _ => some .allocation
    | .setup | .mod | .sqrM _ | .sqrRes | .mulM _ _ | .mulRes _ => some .arithmetic
    | .redM _ | .redRes | .set1 | .exch | .relall => some .arithmetic
    | .busRd _ | .busWr _ _ | .cmdNone _ | .cmdStart _ | .cmdClear _ | .cmdClearStart _ => some .arithmetic
    | .glenWr _ | .xlenWr _ | .plenWr _ | .gMemWr _ _ | .xMemWr _ _ | .pMemWr _ _ => some .arithmetic

/-- The precondition of RED on its context and its input (R131, R203). -/
def reduceFault (s : State) (d : Reg) : Option Fault :=
  if s.regValue .ctx ≠ ctxOf (s.op .p) then some .ctxMismatch
  else if s.op .p * s.op .p ≤ s.regValue d then some .reduceDomain
  else none

/-- The first precondition of R131 that an issued micro-op violates, if any, in the order in which R131 lists them
(log entry 20). -/
def preconditionFault (s : State) (i : Instr) : Option Fault :=
  match acquired i with
  | some r => if s.holds r then some .doubleAcquire else none
  | none =>
    if !(named i).all s.holds then some .notHeld
    else if !(sources i).all (fun r => (s.readReg r).isSome) then some .unpopulatedRead
    else match reduced i with
      | some d => reduceFault s d
      | none => none

end Sys2Proof.Machine
end

