-- ==== Sys2Proof/Machine/Issue.lean ====
section
/-! DEFINITION. Issuing a micro-op as one engine step (spec/41_datapath_uops.md R120), with the order of outcomes of
spec/60_exceptions.md R225: a word that is no admitted form, a violated precondition, an invalid modulus, the kernel's
answer. -/

namespace Sys2Proof.Machine

/-- What every micro-op does before its own effect: its operands must be admitted for the window size of the run, its
preconditions must hold, and LAST_UOP takes its word (R120, R131). -/
def issue (i : Instr) (s : State) (body : State → State) : Host.Outcome State Fault Refusal :=
  if i.admitted s.w then
    match preconditionFault s i with
    | some f => .fault f
    | none => .next (body (s.setLastUop (uopWord i)))
  else .fault .illegalUop

/-- The effect of a fallible micro-op: the kernel answers, and the effect happens or the failure is entered (R120, R226). -/
def fallible (i : Instr) (effect : State → State) (s : State) : State :=
  match kernelFailure i s.kernelAnswer with
  | none => (effect s.takeAnswer).advance
  | some kind => s.takeAnswer.enterFailure kind (uopWord i) (destination i)

/-- The effect of a micro-op that never fails: the kernel is not asked (R222). -/
def infallible (effect : State → State) (s : State) : State := (effect s).advance

/-- A zero modulus fails with InvalidModulus before the kernel is asked (R224, R225). -/
def unlessZeroModulus (i : Instr) (body : State → State) (s : State) : State :=
  if s.op .p = 0 then s.enterFailure .invalidModulus (uopWord i) (destination i) else body s

end Sys2Proof.Machine
end

