-- ==== Sys2Proof/Machine/Datapath.lean ====
section
/-! DEFINITION. The micro-ops that compute: SETUP, MOD, COPY, SQR, MUL, RED and SET1 (spec/41_datapath_uops.md R122 to R128,
spec/44_barrett_reduce_pipe.md R200 to R206). Products are exact and unreduced; RED reduces them. Every source is read before
the destination is written. -/

namespace Sys2Proof.Machine

/-- `SETUP CTX, P`: build the Barrett context of the modulus (R122, R201). -/
def execSetup (s : State) : Host.Outcome State Fault Refusal :=
  issue .setup s (unlessZeroModulus .setup (fallible .setup fun t => t.writeReg .ctx (ctxOf (t.op .p))))

/-- `MOD M[1], G, P`: reduce the base. R123 names the failure a zero modulus would give (log entry 12). -/
def execMod (s : State) : Host.Outcome State Fault Refusal :=
  issue .mod s (unlessZeroModulus .mod (fallible .mod fun t => t.writeReg (.slot 1#8) (modulo (t.op .g) (t.op .p))))

/-- `COPY M[mid], M[1]` (R124). -/
def execCopy (mid : SlotIndex) (s : State) : Host.Outcome State Fault Refusal :=
  issue (.copy mid) s (fallible (.copy mid) fun t => t.writeReg (.slot mid) (t.regValue (.slot 1#8)))

/-- SQR: square the register `r` in place, unreduced (R125). -/
def squareUop (i : Instr) (r : Reg) (s : State) : Host.Outcome State Fault Refusal :=
  issue i s (fallible i fun t => (t.writeReg r (t.regValue r * t.regValue r)).countSqr)

/-- `SQR M[mid]` (R125). -/
def execSqrM (mid : SlotIndex) (s : State) : Host.Outcome State Fault Refusal := squareUop (.sqrM mid) (.slot mid) s

/-- `SQR RES` (R125). -/
def execSqrRes (s : State) : Host.Outcome State Fault Refusal := squareUop .sqrRes .res s

/-- MUL: `x[d] <- x[a] * x[b]`, unreduced (R126). -/
def multiplyUop (i : Instr) (d a b : Reg) (s : State) : Host.Outcome State Fault Refusal :=
  issue i s (fallible i fun t => (t.writeReg d (t.regValue a * t.regValue b)).countMul)

/-- `MUL M[k], M[k-1], M[1]` (R126). -/
def execMulM (k b : SlotIndex) (s : State) : Host.Outcome State Fault Refusal :=
  multiplyUop (.mulM k b) (.slot k) (.slot b) (.slot 1#8) s

/-- `MUL RES, RES, M[j]` (R126). -/
def execMulRes (j : SlotIndex) (s : State) : Host.Outcome State Fault Refusal :=
  multiplyUop (.mulRes j) .res .res (.slot j) s

/-- RED: Barrett-reduce the register `r` in place (R127, R205). -/
def reduceUop (i : Instr) (r : Reg) (s : State) : Host.Outcome State Fault Refusal :=
  issue i s (fallible i fun t => (t.writeReg r (barrettReduce (t.regValue r) (t.op .p) (t.regValue .ctx))).countRed)

/-- `RED M[j], P, CTX` (R127). -/
def execRedM (j : SlotIndex) (s : State) : Host.Outcome State Fault Refusal := reduceUop (.redM j) (.slot j) s

/-- `RED RES, P, CTX` (R127). -/
def execRedRes (s : State) : Host.Outcome State Fault Refusal := reduceUop .redRes .res s

/-- `SET1 RES, P`: `x[RES] <- 1 mod op(P)` (R128). -/
def execSet1 (s : State) : Host.Outcome State Fault Refusal :=
  issue .set1 s (infallible fun t => t.writeReg .res (modulo 1 (t.op .p)))

end Sys2Proof.Machine
end

