-- ==== Sys2Proof/Machine/HostWrite.lean ====
section
/-! DEFINITION. What host writes do: the CTRL commands (spec/40_host_commands.md R102 to R105), the length registers (R106) and
the operand words (R107), with the write lock of spec/20_memory.md R69. -/

namespace Sys2Proof.Machine

/-- An accepted START: a new run begins, and the record of the last one is cleared (R103). -/
def State.beginRun (s : State) : State :=
  { s with
    err := none
    errUop := 0#32
    lastUop := 0#32
    sqrCnt := 0#32
    mulCnt := 0#32
    redCnt := 0#32
    w := 0
    busyWr := false
    seq := .select }

/-- START (R103): dropped while busy, a model fault where an operand word below its length was never written (R109). -/
def State.start (s : State) : Host.Outcome State Fault Refusal :=
  if s.busy then .next s.dropWrite
  else if s.operandsWritten then .next s.beginRun
  else .fault .unwrittenOperand

/-- CLEAR: acknowledge a finished run, dropped while busy, since there is no cancellation (R104). -/
def State.clear (s : State) : State := if s.busy then s.dropWrite else s.acknowledge

/-- A CTRL write: IE first, then CLEAR, then START on the state that CLEAR left, in one step (R102). -/
def State.writeCtrl (s : State) (ie clear start : Bool) : Host.Outcome State Fault Refusal :=
  let s1 := s.setIe ie
  let s2 := if clear then s1.clear else s1
  if start then s2.start else .next s2

/-- A length write, clamped to NWORDS and dropped while busy (R106). -/
def State.writeLen (s : State) (a : Operand) (v : Word) : State :=
  if s.busy then s.dropWrite else s.setLen a (BitVec.ofNat 32 (min v.toNat s.params.nwords))

/-- A write of operand word `i < NWORDS`, dropped while busy (R107). -/
def State.writeWord (s : State) (a : Operand) (i : Nat) (v : Word) : State :=
  if s.busy then s.dropWrite else { s with mem := Memory.storeWord s.mem (a.base + 4 * i) v }

/-- A write to word `i` of an operand window: a word `i >= NWORDS` is reserved, and the write is ignored and sets no flag,
busy or not (R61, R67; log entry 28). -/
def State.writeWindow (s : State) (a : Operand) (i : Nat) (v : Word) : State :=
  if i < s.params.nwords then s.writeWord a i v else s

/-- Bit `i` of the data of a CTRL write (R82). -/
def ctrlBit (data : Word) (i : Nat) : Bool := data.extractLsb' i 1 == 1#1

/-- A host write to a target (R101). A read-only register, Y_MEM and a reserved offset ignore it (R67, R68). -/
def State.writeTarget (s : State) (t : Target) (data : Word) : Host.Outcome State Fault Refusal :=
  match t with
  | .reg .ctrl => s.writeCtrl (ctrlBit data 2) (ctrlBit data 1) (ctrlBit data 0)
  | .reg .glen => .next (s.writeLen .g data)
  | .reg .xlen => .next (s.writeLen .x data)
  | .reg .plen => .next (s.writeLen .p data)
  | .reg _ => .next s
  | .mem a i => .next (s.writeWord a i data)
  | .yMem _ => .next s
  | .reserved => .next s

end Sys2Proof.Machine
end

