-- ==== Sys2Proof/Machine/HostBus.lean ====
section
/-! DEFINITION. The host transactions: BUS_RD and BUS_WR (spec/40_host_commands.md R100, R101), the four CTRL commands (R102)
and the writes of lengths (R106) and operand words (R107). No host access fails or faults by itself (R220); an accepted START
can be a model fault (R109). -/

namespace Sys2Proof.Machine

/-- `rdata` of a read takes the value, or a free draw where the word was never written (R71, R100). A read changes nothing
else of the block (R66). -/
def State.busRead (s : State) (value : Option Word) : State :=
  match value with
  | some v => { s with rdata := v }
  | none => { s with rdata := Config.freeWord s.draws, draws := s.draws + 1 }

/-- BUS_RD (R100). -/
def execBusRd (off : Offset) (s : State) : Host.Outcome State Fault Refusal :=
  .next (s.busRead (s.readTarget (hostTarget s.params off)))

/-- BUS_WR (R101), for any offset: the row of the opcode table takes the writes that no more specific row takes. -/
def execBusWr (off : Offset) (data : Word) (s : State) : Host.Outcome State Fault Refusal :=
  s.writeTarget (hostTarget s.params off) data

/-- CMD_NONE: only IE is written (R102, R105). -/
def execCmdNone (ie : Bool) (s : State) : Host.Outcome State Fault Refusal := s.writeCtrl ie false false

/-- CMD_START (R102, R103). -/
def execCmdStart (ie : Bool) (s : State) : Host.Outcome State Fault Refusal := s.writeCtrl ie false true

/-- CMD_CLEAR (R102, R104). -/
def execCmdClear (ie : Bool) (s : State) : Host.Outcome State Fault Refusal := s.writeCtrl ie true false

/-- CMD_CLEAR_START: CLEAR, then START (R102). -/
def execCmdClearStart (ie : Bool) (s : State) : Host.Outcome State Fault Refusal := s.writeCtrl ie true true

/-- GLEN_WR (R106). -/
def execGlenWr (data : Word) (s : State) : Host.Outcome State Fault Refusal := .next (s.writeLen .g data)

/-- XLEN_WR (R106). -/
def execXlenWr (data : Word) (s : State) : Host.Outcome State Fault Refusal := .next (s.writeLen .x data)

/-- PLEN_WR (R106). -/
def execPlenWr (data : Word) (s : State) : Host.Outcome State Fault Refusal := .next (s.writeLen .p data)

/-- G_MEM_WR (R107). -/
def execGMemWr (i : BitVec 10) (data : Word) (s : State) : Host.Outcome State Fault Refusal :=
  .next (s.writeWindow .g i.toNat data)

/-- X_MEM_WR (R107). -/
def execXMemWr (i : BitVec 10) (data : Word) (s : State) : Host.Outcome State Fault Refusal :=
  .next (s.writeWindow .x i.toNat data)

/-- P_MEM_WR (R107). -/
def execPMemWr (i : BitVec 10) (data : Word) (s : State) : Host.Outcome State Fault Refusal :=
  .next (s.writeWindow .p i.toNat data)

end Sys2Proof.Machine
end

