-- ==== Sys2Proof/Machine/Resource.lean ====
section
/-! DEFINITION. The micro-ops over resources: ACQ (spec/41_datapath_uops.md R121) and RELALL (R130). -/

namespace Sys2Proof.Machine

/-- ACQ: acquire the resource `r` with instruction `i` (R121). On failure the held set is as it was. -/
def acquireUop (i : Instr) (r : Reg) (s : State) : Host.Outcome State Fault Refusal :=
  issue i s (fallible i fun t => t.acquire r)

/-- `ACQ M[k]` (R121). -/
def execAcqM (k : SlotIndex) (s : State) : Host.Outcome State Fault Refusal := acquireUop (.acqM k) (.slot k) s

/-- `ACQ CTX` (R121). -/
def execAcqCtx (s : State) : Host.Outcome State Fault Refusal := acquireUop .acqCtx .ctx s

/-- `ACQ RES` (R121). -/
def execAcqRes (s : State) : Host.Outcome State Fault Refusal := acquireUop .acqRes .res s

/-- `RELALL` (R130). In the Cleanup step it moves the sequencer to Error (R227). -/
def execRelall (s : State) : Host.Outcome State Fault Refusal := issue .relall s (infallible State.releaseAll)

end Sys2Proof.Machine
end

