-- ==== Sys2Proof/Machine/Result.lean ====
section
/-! DEFINITION. The micro-op EXCH, which moves the accumulator into the result memory (spec/41_datapath_uops.md R129). -/

namespace Sys2Proof.Machine

/-- The effect of EXCH: all NWORDS words of Y_MEM and YLEN take the accumulator's value, and RES loses its own (R129). -/
def State.moveResult (s : State) : State :=
  { s with
    mem := Memory.storeWords s.mem yBase (s.regValue .res) s.params.nwords
    ylen := BitVec.ofNat 32 (wordLength (s.regValue .res))
    res := none }

/-- `EXCH Y, RES` (R129). -/
def execExch (s : State) : Host.Outcome State Fault Refusal := issue .exch s (infallible State.moveResult)

end Sys2Proof.Machine
end

