-- ==== Sys2Proof/Machine/Dispatch.lean ====
section
/-! DEFINITION. One arm per instruction of spec/opcode_table.json. -/

namespace Sys2Proof.Machine

def exec (i : Instr) (s : State) : Host.Outcome State Fault Refusal :=
  match i with
  | .acqM k => Sys2Proof.Machine.execAcqM k s
  | .acqCtx => Sys2Proof.Machine.execAcqCtx s
  | .acqRes => Sys2Proof.Machine.execAcqRes s
  | .setup => Sys2Proof.Machine.execSetup s
  | .mod => Sys2Proof.Machine.execMod s
  | .copy mid => Sys2Proof.Machine.execCopy mid s
  | .sqrM mid => Sys2Proof.Machine.execSqrM mid s
  | .sqrRes => Sys2Proof.Machine.execSqrRes s
  | .mulM k b => Sys2Proof.Machine.execMulM k b s
  | .mulRes j => Sys2Proof.Machine.execMulRes j s
  | .redM j => Sys2Proof.Machine.execRedM j s
  | .redRes => Sys2Proof.Machine.execRedRes s
  | .set1 => Sys2Proof.Machine.execSet1 s
  | .exch => Sys2Proof.Machine.execExch s
  | .relall => Sys2Proof.Machine.execRelall s
  | .busRd off => Sys2Proof.Machine.execBusRd off s
  | .busWr off data => Sys2Proof.Machine.execBusWr off data s
  | .cmdNone ie => Sys2Proof.Machine.execCmdNone ie s
  | .cmdStart ie => Sys2Proof.Machine.execCmdStart ie s
  | .cmdClear ie => Sys2Proof.Machine.execCmdClear ie s
  | .cmdClearStart ie => Sys2Proof.Machine.execCmdClearStart ie s
  | .glenWr data => Sys2Proof.Machine.execGlenWr data s
  | .xlenWr data => Sys2Proof.Machine.execXlenWr data s
  | .plenWr data => Sys2Proof.Machine.execPlenWr data s
  | .gMemWr n data => Sys2Proof.Machine.execGMemWr n data s
  | .xMemWr n data => Sys2Proof.Machine.execXMemWr n data s
  | .pMemWr n data => Sys2Proof.Machine.execPMemWr n data s

end Sys2Proof.Machine
end

