-- ==== Sys2Proof/Machine/Builder.lean ====
section
/-! DEFINITION. The power table builder: the choice of the window size and the micro-ops of the table build, in the order of
issue (spec/42_power_table_builder.md R150 to R157). -/

namespace Sys2Proof.Machine

/-- The window size for an exponent of `b` bits (R150). -/
def windowSize (b : Nat) : Nat :=
  if b ≤ 7 then 2
  else if b ≤ 36 then 3
  else if b ≤ 140 then 4
  else if b ≤ 450 then 5
  else if b ≤ 1303 then 6
  else if b ≤ 3529 then 7
  else 8

/-- The slot index as a field of the encoding. -/
def slotIndex (k : Nat) : SlotIndex := BitVec.ofNat 8 k

/-- Phase ALLOC: `ACQ M[0] .. ACQ M[2^w - 1]` in ascending order (R152). -/
def allocPhase (w : Nat) : List Instr := (List.range (2 ^ w)).map fun k => .acqM (slotIndex k)

/-- Phase SETUP: `ACQ CTX`, then `SETUP CTX, P` (R154). -/
def setupPhase : List Instr := [.acqCtx, .setup]

/-- Square-and-reduce the midpoint slot (R17). -/
def squareReduceMid (w : Nat) : List Instr := [.sqrM (slotIndex (midSlot w)), .redM (slotIndex (midSlot w))]

/-- Phase TBL_MID: copy `M[1]` into the midpoint slot, then square-and-reduce it `w - 1` times (R156). -/
def midPhase (w : Nat) : List Instr :=
  .copy (slotIndex (midSlot w)) :: (List.replicate (w - 1) (squareReduceMid w)).flatten

/-- The multiply-reduce of slot `k` (R157). -/
def multiplyReduceSlot (k : Nat) : List Instr := [.mulM (slotIndex k) (slotIndex (k - 1)), .redM (slotIndex k)]

/-- Phase TBL_UPPER: the multiply-reduce of `M[mid + 1] .. M[2^w - 1]` in ascending order (R157). -/
def upperPhase (w : Nat) : List Instr :=
  ((List.range (midSlot w - 1)).map fun t => multiplyReduceSlot (midSlot w + 1 + t)).flatten

/-- The table build, a function of the window size alone (R152 to R157, R162). -/
def buildProgram (w : Nat) : List Instr := allocPhase w ++ setupPhase ++ [.mod] ++ midPhase w ++ upperPhase w

end Sys2Proof.Machine
end

