-- ==== Sys2Proof/Machine/Scan.lean ====
section
/-! DEFINITION. The windowed exponentiator: the bit extraction, the three modes, the flush of a trailing partial window, and
the issue program of a run (spec/43_windowed_exponentiator.md R170 to R186). -/

namespace Sys2Proof.Machine

/-- `digit(X, i)` (R175). -/
def digit (digitBit x i : Nat) : Nat := x / 2 ^ (digitBit * i) % 2 ^ digitBit

/-- `used(X)`: the number of digits of the normalized exponent (R175). -/
def usedDigits (digitBit x : Nat) : Nat := ceilDiv (bitLength x) digitBit

/-- The scan state at the start of the scan (R173). -/
def scanStart (digitBit x : Nat) : ScanState where
  mode := .skipLeadingZeros
  windowAccum := 0
  windowBitCount := 0
  digitIndex := (usedDigits digitBit x : Int) - 1
  digitBuffer := 0
  remainingBitsInDigit := 0

/-- Load the next digit (R174). -/
def loadDigit (digitBit x : Nat) (st : ScanState) : ScanState :=
  { st with
    digitBuffer := digit digitBit x st.digitIndex.toNat
    digitIndex := st.digitIndex - 1
    remainingBitsInDigit := digitBit }

/-- Take the top bit off the digit buffer (R174). -/
def shiftDigit (digitBit : Nat) (st : ScanState) : Nat × ScanState :=
  (bit st.digitBuffer (digitBit - 1),
   { st with
     digitBuffer := st.digitBuffer * 2 % 2 ^ digitBit
     remainingBitsInDigit := st.remainingBitsInDigit - 1 })

/-- The next exponent bit, or none at the end of the exponent (R174). -/
def nextBit (digitBit x : Nat) (st : ScanState) : Option (Nat × ScanState) :=
  if st.remainingBitsInDigit = 0 then
    if st.digitIndex < 0 then none else some (shiftDigit digitBit (loadDigit digitBit x st))
  else some (shiftDigit digitBit st)

/-- Square-and-reduce the accumulator (R17). -/
def squareReduceRes : List Instr := [.sqrRes, .redRes]

/-- Multiply-reduce the accumulator by slot `j` (R17). -/
def multiplyReduceRes (j : Nat) : List Instr := [.mulRes (slotIndex j), .redRes]

/-- The micro-ops of a full window with value `j` (R181). -/
def fullWindow (w j : Nat) : List Instr := (List.replicate w squareReduceRes).flatten ++ multiplyReduceRes j

/-- Append the bit to the open window, and close it when it is full (R180, R181). -/
def appendBit (w y : Nat) (st : ScanState) : ScanState × List Instr :=
  if st.windowBitCount + 1 = w then
    ({ st with windowAccum := 0, windowBitCount := 0, mode := .squaring }, fullWindow w (st.windowAccum * 2 + y))
  else
    ({ st with windowAccum := st.windowAccum * 2 + y, windowBitCount := st.windowBitCount + 1, mode := .accumulating }, [])

/-- What the scan does with one exponent bit, by mode (R178 to R180). -/
def scanBit (w y : Nat) (st : ScanState) : ScanState × List Instr :=
  match st.mode with
  | .skipLeadingZeros => if y = 0 then (st, []) else appendBit w y st
  | .squaring => if y = 0 then (st, squareReduceRes) else appendBit w y st
  | .accumulating => appendBit w y st

/-- Step `t` of the flush of a window of `c` bits with value `a` (R183). -/
def flushStep (a c t : Nat) : List Instr :=
  squareReduceRes ++ (if bit a (c - 1 - t) = 1 then multiplyReduceRes 1 else [])

/-- The flush of the trailing partial window, which multiplies by `M[1]` bit by bit (R183, R189). -/
def flushOps (st : ScanState) : List Instr :=
  match st.mode with
  | .accumulating => ((List.range st.windowBitCount).map (flushStep st.windowAccum st.windowBitCount)).flatten
  | .skipLeadingZeros | .squaring => []

/-- The scan from a scan state to the end of the exponent, flush included, as the scan state it ends in and the micro-ops it
issues. Each turn of the loop takes one bit (R174); the fuel is more than the bits there are. -/
def scanLoop (digitBit x w : Nat) : Nat → ScanState → ScanState × List Instr
  | 0, st => (st, flushOps st)
  | fuel + 1, st =>
    match nextBit digitBit x st with
    | none => (st, flushOps st)
    | some (y, st1) =>
      let here := scanBit w y st1
      let later := scanLoop digitBit x w fuel here.1
      (later.1, here.2 ++ later.2)

/-- The whole scan of an exponent (R173 to R183). -/
def runScan (digitBit x w : Nat) : ScanState × List Instr :=
  scanLoop digitBit x w (usedDigits digitBit x * digitBit + 1) (scanStart digitBit x)

/-- Phase RES_INIT (R172). -/
def resInitPhase : List Instr := [.acqRes, .set1]

/-- Phase FINISH (R184). -/
def finishPhase : List Instr := [.exch, .relall]

/-- The issue program of a run, for exponent `x` and window size `w` (R170, R186). -/
def issueProgram (digitBit x w : Nat) : List Instr :=
  buildProgram w ++ resInitPhase ++ (runScan digitBit x w).2 ++ finishPhase

end Sys2Proof.Machine
end

