-- ==== Sys2Proof/Machine/Engine.lean ====
section
/-! DEFINITION. Which step comes next, and with which instruction: the interleaving of host, engine and reset
(spec/20_memory.md R72, spec/70_reset_and_hazards.md R260, R263, R271), the Select step (spec/42_power_table_builder.md R151),
and fetching from the issue program or from the host bus. -/

namespace Sys2Proof.Machine

/-- The Select step: the window size is chosen, the issue program is computed, and the run is at its first entry (R151). The
scan runs inside this step, as R186 allows, and leaves the scan registers as it ends (log entry 15). -/
def State.selectStep (s : State) : State :=
  let x := s.op .x
  let w := windowSize (bitLength x)
  { s with
    w := w
    prog := (issueProgram s.params.digitBit x w).map uopWord
    scan := (runScan s.params.digitBit x w).1
    seq := .run 0 }

/-- The micro-op word that the engine issues next: the entry of the program, or RELALL in the Cleanup step (R120, R227). Past
the end of the program, where no run comes, it is word 0, which is no operation (R89; log entry 23). -/
def State.nextWord (s : State) : Word :=
  match s.seq with
  | .run i => s.prog.getD i 0#32
  | .cleanup => uopWord .relall
  | .idle | .select | .done | .error => 0#32

/-- What one step of the machine does. -/
inductive Action where
  /-- The machine waits: no agent has a step (R263). -/
  | wait
  /-- The reset event (R260). -/
  | reset
  /-- The Select step (R151). -/
  | select
  /-- An instruction runs: a host transaction, or the micro-op that the engine issues. -/
  | run (i : Instr)
  /-- The engine is at a word that decodes to no micro-op (R88). -/
  | illegal
  deriving DecidableEq, Repr

/-- The engine's one enabled step, if it has one (R263). -/
def State.engineAction (s : State) : Action :=
  match s.seq with
  | .idle | .done | .error => .wait
  | .select => .select
  | .run _ | .cleanup =>
    match decodeUop s.nextWord with
    | .ok i => .run i
    | .rejected _ => .illegal

/-- What the next step does: the agent that the interleaving names moves. Once no turn is left, the host takes no further
step, and the engine takes its own (R72, R271; log entries 1 and 2). -/
def State.nextAction (s : State) : Action :=
  match s.turns with
  | .host t :: _ => .run (decodeHost t)
  | .reset :: _ => .reset
  | .engine :: _ => s.engineAction
  | [] => s.engineAction

/-- The turn is taken off the interleaving. -/
def State.takeTurn (s : State) : State := { s with turns := s.turns.tail }

/-- The window size with which a micro-op placed for its own sake is issued: that of the state where it admits the micro-op,
else the smallest that does, else that of the state. -/
def placedWindow (w : Nat) (u : Word) : Nat :=
  match decodeUop u with
  | .ok i => if i.admitted w then w else (i.admittingWindow).getD w
  | .rejected _ => w

/-- The state in which the engine's next step issues the word `u`: the engine is at the first entry of a program of that one
word, and it is its turn (log entry 17). -/
def State.placeUop (s : State) (u : Word) : State :=
  { s with turns := .engine :: s.turns, seq := .run 0, prog := [u], w := placedWindow s.w u }

/-- The state in which the host's next step is the transaction `t`. -/
def State.placeHost (s : State) (t : Transaction) : State := { s with turns := .host t :: s.turns }

end Sys2Proof.Machine
end

