-- ==== Sys2Proof/Machine/Step.lean ====
section
/-! DEFINITION. One atomic step of the block (spec/20_memory.md R72): the next action, taken on the state whose turn is off
the interleaving. -/

namespace Sys2Proof.Machine

/-- One step. -/
def step (s : State) : Host.Outcome State Fault Refusal :=
  match s.nextAction with
  | .wait => .next s.takeTurn
  | .reset => .next s.takeTurn.onReset
  | .select => .next s.takeTurn.selectStep
  | .run i => exec i s.takeTurn
  | .illegal => .fault .illegalUop

/-- The state whose next step runs the instruction of the word `w` of `nbits` bits: a host transaction for 48 bits, else a
micro-op word. -/
def State.withFetchWord (s : State) (nbits w : Nat) : State :=
  if nbits = 48 then s.placeHost (BitVec.ofNat 48 w) else s.placeUop (BitVec.ofNat 32 w)

end Sys2Proof.Machine
end

