-- ==== Sys2Proof/Machine/Barrett.lean ====
section
/-! DEFINITION. The classical Barrett reduction that spec/44_barrett_reduce_pipe.md R209 gives for information. No step of
the model uses it: the value contract R202 is what RED computes. It is here so that the agreement R209 asks of an
implementation can be stated. -/

namespace Sys2Proof.Machine

/-- `k`: the number of `DIGIT_BIT`-bit digits of the modulus (R201). -/
def modulusDigits (digitBit m : Nat) : Nat := usedDigits digitBit m

/-- The classical constant `mu = floor(2^(2*DIGIT_BIT*k) / m)` (R201). -/
def classicalMu (digitBit m : Nat) : Nat := 2 ^ (2 * digitBit * modulusDigits digitBit m) / m

/-- One pass of the correction loop (R209). -/
def correctOnce (m r : Nat) : Nat := if m ≤ r then r - m else r

/-- The reduction of R209, with the two passes of its correction loop written out. -/
def classicalReduce (digitBit x m : Nat) : Nat :=
  let b := 2 ^ digitBit
  let k := modulusDigits digitBit m
  let q3 := x / b ^ (k - 1) * classicalMu digitBit m / b ^ (k + 1)
  let r1 := x % b ^ (k + 1)
  let r2 := q3 * m % b ^ (k + 1)
  let r := if r1 < r2 then r1 + b ^ (k + 1) - r2 else r1 - r2
  correctOnce m (correctOnce m r)

end Sys2Proof.Machine
end

