-- ==== Sys2Proof/Safety.lean ====
section
/-! DEFINITION. What claims about runs are stated in: the places memory may hold, the invariant that every step keeps, the
start of a run and the count of its steps, and what it means that steps are taken with no model fault. -/

namespace Sys2Proof.Machine

/-- The first offsets of the four operand windows (R61). -/
def windowBases : List Nat := [Operand.g.base, Operand.x.base, Operand.p.base, yBase]

/-- Does the offset lie in a word `i < NWORDS` of an operand window (R61, R62)? -/
def inWindow (p : Params) (a : Nat) : Bool :=
  windowBases.any fun base => decide (base ≤ a) && decide (a < base + 4 * p.nwords)

/-- May resources be held at this position: from the first micro-op of a run to the end of its cleanup? -/
def Seq.active : Seq → Bool
  | .run _ | .cleanup => true
  | .idle | .select | .done | .error => false

/-- Is the run at this position a failed one: in Cleanup or Error? -/
def Seq.failed : Seq → Bool
  | .cleanup | .error => true
  | .idle | .select | .run _ | .done => false

/-- The invariant of the machine. -/
structure State.Inv (s : State) : Prop where
  /-- The parameters are in their ranges (R9, R10). -/
  params : s.params.wf
  /-- Memory keeps its canonical form. -/
  memory : Memory.wf s.mem
  /-- Memory holds nothing outside the operand windows (R61, R62). -/
  places : ∀ c ∈ s.mem, inWindow s.params c.1
  /-- The lengths are legal (R31). -/
  lengths : ∀ a, (s.len a).toNat ≤ s.params.nwords
  /-- WSIZE is 0 or a window size (R11, R30). -/
  window : s.w = 0 ∨ validWindow s.w
  /-- No resource is held twice (R33). -/
  heldOnce : s.held.Nodup
  /-- A register with a value is held (R22, R121, R130). -/
  valuesHeld : ∀ r, (s.readReg r).isSome → r ∈ s.held
  /-- Outside a run nothing is held (R33). -/
  released : s.seq.active = false → s.held = []
  /-- ERR is not 0 exactly in Cleanup and Error (R226, R228). -/
  errRecorded : s.err.isSome = s.seq.failed
  /-- The position is an entry of the program, and the program ends with RELALL (R37, R186). -/
  position : ∀ i, s.seq = .run i → i < s.prog.length ∧ s.prog.getLast? = some (uopWord .relall)
  /-- The operands of a run are written (R69, R109). -/
  operands : s.busy = true → s.operandsWritten = true

/-- Is it the engine's turn: no turn is left, or the next one is the engine's (R72)? -/
def State.enginesTurn (s : State) : Prop := s.turns = [] ∨ ∃ rest, s.turns = .engine :: rest

/-- Does the offset lead to no register and to no word `i < NWORDS` of an operand window (R61)? -/
abbrev reservedOffset (p : Params) (off : Offset) : Prop :=
  (0x0038 ≤ off.toNat ∧ off.toNat < 0x1000) ∨ 0x5000 ≤ off.toNat ∨
    (0x1000 ≤ off.toNat ∧ off.toNat < 0x5000 ∧ p.nwords ≤ off.toNat % 0x1000 / 4)

/-- Does the offset lead to a read-only register or to a word of Y_MEM (R27, R61, R68)? -/
abbrev readOnlyOffset (p : Params) (off : Offset) : Prop :=
  off.toNat / 4 ∈ [0, 2, 3, 7, 8, 9, 10, 11, 12, 13] ∨
    (0x4000 ≤ off.toNat ∧ off.toNat < 0x4000 + 4 * p.nwords ∧ off.toNat < 0x5000)

/-- The instruction stores to word `k` of the operand memory of `o`: a host write that goes there (R101, R107), in a state
where the write lock does not drop it (R69). -/
def State.storesWord (s : State) (i : Instr) (o : Operand) (k : Nat) : Prop :=
  s.busy = false ∧ k < s.params.nwords ∧
    ((∃ off d, i = .busWr off d ∧ hostTarget s.params off = .mem o k) ∨
      ∃ n d, k = n.toNat ∧
        ((i = .gMemWr n d ∧ o = .g) ∨ (i = .xMemWr n d ∧ o = .x) ∨ (i = .pMemWr n d ∧ o = .p)))

/-- A run is about to begin: START was accepted. The host may take any turns of its own among the engine's (R72, R271), and no
reset is to come. -/
structure State.AtStart (s : State) : Prop where
  inv : s.Inv
  atSelect : s.seq = .select
  noReset : Turn.reset ∉ s.turns

/-- How many steps the machine takes until the engine has had `n` turns: those it has in the interleaving, with the turns that
come before each, and then the turns it has to itself (R72, R271). -/
def stepsFor : List Turn → Nat → Nat
  | _, 0 => 0
  | [], n + 1 => n + 1
  | .engine :: rest, n + 1 => stepsFor rest n + 1
  | .host _ :: rest, n + 1 => stepsFor rest (n + 1) + 1
  | .reset :: rest, n + 1 => stepsFor rest (n + 1) + 1

/-- The issue program that the Select step computes in this state (R151). -/
def State.program (s : State) : List Instr :=
  issueProgram s.params.digitBit (s.op .x) (windowSize (bitLength (s.op .x)))

/-- The kernel answers `Ok` at least `n` times from here on, the premise of a claim about successful runs (R13). -/
def State.kernelOk (s : State) (n : Nat) : Prop := s.kernel.take n = List.replicate n KAnswer.ok

/-- Is the instruction a squaring (R125)? -/
def isSqr : Instr → Bool
  | .sqrM _ | .sqrRes => true
  | .acqM _ | .acqCtx | .acqRes | .setup | .mod | .copy _ => false
  | .mulM _ _ | .mulRes _ | .redM _ | .redRes | .set1 | .exch | .relall => false
  | .busRd _ | .busWr _ _ | .cmdNone _ | .cmdStart _ | .cmdClear _ | .cmdClearStart _ => false
  | .glenWr _ | .xlenWr _ | .plenWr _ | .gMemWr _ _ | .xMemWr _ _ | .pMemWr _ _ => false

/-- Is the instruction a multiplication (R126)? -/
def isMul : Instr → Bool
  | .mulM _ _ | .mulRes _ => true
  | .acqM _ | .acqCtx | .acqRes | .setup | .mod | .copy _ => false
  | .sqrM _ | .sqrRes | .redM _ | .redRes | .set1 | .exch | .relall => false
  | .busRd _ | .busWr _ _ | .cmdNone _ | .cmdStart _ | .cmdClear _ | .cmdClearStart _ => false
  | .glenWr _ | .xlenWr _ | .plenWr _ | .gMemWr _ _ | .xMemWr _ _ | .pMemWr _ _ => false

/-- Is the instruction a reduction (R127)? -/
def isRed : Instr → Bool
  | .redM _ | .redRes => true
  | .acqM _ | .acqCtx | .acqRes | .setup | .mod | .copy _ => false
  | .sqrM _ | .sqrRes | .mulM _ _ | .mulRes _ | .set1 | .exch | .relall => false
  | .busRd _ | .busWr _ _ | .cmdNone _ | .cmdStart _ | .cmdClear _ | .cmdClearStart _ => false
  | .glenWr _ | .xlenWr _ | .plenWr _ | .gMemWr _ _ | .xMemWr _ _ | .pMemWr _ _ => false

/-- The value in Y_MEM, word 0 least significant (R63, R129). -/
def State.result (s : State) : Nat := Memory.value s.mem yBase s.params.nwords

/-- `n` steps end in the state `t`, with no fault and no refusal on the way. -/
def reaches (n : Nat) (s t : State) : Prop := Sys2Proof.core.run n s = .next t

end Sys2Proof.Machine
end

