-- ==== Sys2Proof/Certificates/Slice0/Obligations.lean ====
section
/-! DEFINITION. The statements for the provers, from the numbered rules of spec/. A statement is about every state unless it
says otherwise; a state carries its instance's parameters and the kernel's answers to come, so a statement about every state
is about every instance and every oracle (R9, R10, R13). -/

open Sys2Proof Sys2Proof.Machine

/-! ## Reset, the invariant, and steps -/

/-- R43. After reset every piece of state that the rule gives a value has it, for every instance, and no register of the
datapath and no memory word has a value. The scan state, which the rule leaves unspecified, is not mentioned. -/
def Obligations.ResetValues : Prop :=
  State.reset = State.resetOf { nwords := 256, digitBit := 32 } ∧
  ∀ p : Params, ∃ s, s = State.resetOf p ∧
    s.hostReg .id = 0x4D455850#32 ∧ s.hostReg .param = paramWord p ∧ s.params = p ∧ s.ie = false ∧
    s.seq = .idle ∧ s.seq.stateCode = 0#32 ∧ s.errCode = 0#32 ∧ s.busyWr = false ∧ s.irq = false ∧
    s.statusWord = 0#32 ∧
    s.glen = 0#32 ∧ s.xlen = 0#32 ∧ s.plen = 0#32 ∧ s.ylen = 0#32 ∧
    s.live = 0 ∧ s.held = [] ∧ s.sqrCnt = 0#32 ∧ s.mulCnt = 0#32 ∧ s.redCnt = 0#32 ∧
    s.lastUop = 0#32 ∧ s.errUop = 0#32 ∧
    (∀ r, s.readReg r = none) ∧ (∀ a, Memory.loadWord s.mem a = none)

/-- The invariant holds after reset, for every instance whose parameters are in their ranges (R9, R10). -/
def Obligations.ResetMeetsInvariant : Prop :=
  State.reset.Inv ∧ ∀ p : Params, p.wf → (State.resetOf p).Inv

/-- Every step keeps the invariant, from every state that meets it. -/
def Obligations.StepKeepsInvariant : Prop :=
  ∀ s t : State, s.Inv → step s = .next t → t.Inv

/-- R260, R261, R28. A reset turn takes every piece of the block's state to its reset value, whatever the block was doing. The
parameters, the inputs to come, the draws made and the last value read stay: that part is the model's choice (log entry 25).
The scan registers, which R43 leaves unspecified, and the program, which it does not name, are left open. -/
def Obligations.ResetEventStopsRun : Prop :=
  ∀ (s : State) (rest : List Turn), s.turns = .reset :: rest →
    ∃ scan prog, step s = .next
      { State.resetOf s.params with
        scan := scan, prog := prog, rdata := s.rdata, turns := rest, kernel := s.kernel, draws := s.draws }

/-- R72, R81, R90. At the host's turn the step is the decoded transaction run on the state whose turn is taken. -/
def Obligations.HostTurnRunsTransaction : Prop :=
  ∀ (s : State) (t : Transaction) (rest : List Turn), s.turns = .host t :: rest →
    step s = exec (decodeHost t) { s with turns := rest }

/-- R120, R88. At the engine's turn in a run the step is the decoded entry of the issue program, run on the state whose turn is
taken; a word that decodes to none is a model fault. -/
def Obligations.EngineIssuesProgramWord : Prop :=
  ∀ (s : State) (n : Nat) (u : Word), s.enginesTurn → s.seq = .run n → s.prog[n]? = some u →
    (∀ i, decodeUop u = .ok i → step s = exec i { s with turns := s.turns.tail }) ∧
    (∀ r, decodeUop u = .rejected r → step s = .fault .illegalUop)

/-- R227. The Cleanup step issues RELALL and goes to Error, and changes nothing else. -/
def Obligations.CleanupStepReleasesAll : Prop :=
  ∀ s : State, s.enginesTurn → s.seq = .cleanup →
    step s = .next
      { s with
        turns := s.turns.tail, lastUop := 0x50000000#32, held := [], slots := Vector.replicate 256 none, res := none,
        ctx := none, seq := .error }

/-- R151. The Select step chooses the window size of the exponent's bit length, writes the issue program, and enters the run;
it issues no micro-op, asks the kernel nothing and cannot fail. Nothing else changes but the scan registers, of which R38 says
nothing here. -/
def Obligations.SelectStepEntersRun : Prop :=
  ∀ s : State, s.enginesTurn → s.seq = .select →
    ∃ w scan, w = windowSize (bitLength (s.op .x)) ∧
      step s = .next
        { s with
          turns := s.turns.tail, w := w, prog := (issueProgram s.params.digitBit (s.op .x) w).map uopWord, scan := scan,
          seq := .run 0 }

/-- R263, R245. In Idle, Done and Error the engine takes no step: every piece of the block's state keeps its value. -/
def Obligations.WaitingPositionsKeepState : Prop :=
  ∀ s : State, s.enginesTurn → (s.seq = .idle ∨ s.seq = .done ∨ s.seq = .error) →
    step s = .next { s with turns := s.turns.tail }

/-! ## Encodings -/

/-- Decoding an encoded instruction gives it back, for every instruction with every operand its encoding holds, but for a
host write that a more specific row takes (R81 to R87, R92). -/
def Obligations.DecodeInvertsEncode : Prop :=
  ∀ i : Instr, (∀ off data, i = .busWr off data → takenBySpecificRow off = false) → decode (encode i) = .ok i

/-- A micro-op word that decodes is the encoding of what it decodes to: each word has one meaning, and no bit of it is
dropped (R83 to R87, R92). -/
def Obligations.EncodeInvertsDecode : Prop :=
  ∀ (u : Word) (i : Instr), decodeUop u = .ok i → encode i = .uop u

/-- Words that the spec writes out decode to the instructions it gives for them (R87, R93, R163, R192; host transactions of
95_test_vectors.md). One word is written out nowhere: the write of 0 to YLEN, packed from its fields by R81, which R101 gives to
the general row. -/
def Obligations.SpecWordsDecode : Prop :=
  decodeUop 0x34020003#32 = .ok (.mulRes 3#8) ∧ decodeUop 0x300C0401#32 = .ok (.mulM 3#8 2#8) ∧
  decodeUop 0x18060504#32 = .ok .mod ∧ decodeUop 0x20080200#32 = .ok (.copy 2#8) ∧
  decodeUop 0x4C160000#32 = .ok .exch ∧
  decodeHost 0xA0000000000D#48 = .xMemWr 0#10 13#32 ∧ decodeHost 0x800400000005#48 = .cmdStart true ∧
  decodeHost 0x801C00000000#48 = .busWr 0x001C#15 0#32 ∧ decodeHost 0x400000000000#48 = .busRd 0x4000#15

/-- R84, R89. A word whose OP is 0 is no operation, and one whose OP is 0x0B to 0x1F is reserved, whatever its operands. -/
def Obligations.ReservedOpsRejected : Prop :=
  ∀ u : Word,
    (u.extractLsb' 27 5 = 0#5 → decodeUop u = .rejected .notAnOperation) ∧
    (0x0B ≤ (u.extractLsb' 27 5).toNat → decodeUop u = .rejected .reservedOp)

/-- The word of every micro-op form, as R87 computes it from the slot indices. -/
def Obligations.UopWordFormulas : Prop :=
  (∀ k, (uopWord (.acqM k)).toNat = 0x08000000 + k.toNat * 0x40000) ∧
  uopWord .acqCtx = 0x0C040000#32 ∧ uopWord .acqRes = 0x0C000000#32 ∧ uopWord .setup = 0x14060800#32 ∧
  uopWord .mod = 0x18060504#32 ∧
  (∀ k, (uopWord (.copy k)).toNat = 0x20000200 + k.toNat * 0x40000) ∧
  (∀ k, (uopWord (.sqrM k)).toNat = 0x28000000 + k.toNat * 0x40000) ∧ uopWord .sqrRes = 0x2C000000#32 ∧
  (∀ k b, (uopWord (.mulM k b)).toNat = 0x30000001 + k.toNat * 0x40000 + b.toNat * 0x200) ∧
  (∀ j, (uopWord (.mulRes j)).toNat = 0x34020000 + j.toNat) ∧
  (∀ j, (uopWord (.redM j)).toNat = 0x38020901 + j.toNat * 0x40000) ∧ uopWord .redRes = 0x3C020901#32 ∧
  uopWord .set1 = 0x44020800#32 ∧ uopWord .exch = 0x4C160000#32 ∧ uopWord .relall = 0x50000000#32

/-! ## Micro-ops: where they complete, and with what -/

/-- R121. ACQ of a resource not yet held adds it to the held set, with no value in it. -/
def Obligations.AcquireCompletes : Prop :=
  ∀ s : State, s.kernelAnswer = .ok →
    (∀ k : SlotIndex, validWindow s.w = true → k.toNat < 2 ^ s.w → Reg.slot k ∉ s.held →
      exec (.acqM k) s = .next
        { s.takeAnswer with
          lastUop := uopWord (.acqM k), held := s.held ++ [Reg.slot k], slots := s.slots.set k.toNat none,
          seq := s.nextSeq }) ∧
    (Reg.ctx ∉ s.held →
      exec .acqCtx s = .next
        { s.takeAnswer with lastUop := 0x0C040000#32, held := s.held ++ [Reg.ctx], ctx := none, seq := s.nextSeq }) ∧
    (Reg.res ∉ s.held →
      exec .acqRes s = .next
        { s.takeAnswer with lastUop := 0x0C000000#32, held := s.held ++ [Reg.res], res := none, seq := s.nextSeq })

/-- R122. SETUP with `op(P)` not 0 puts the context of `op(P)` in CTX. That a context is its modulus is the model's choice,
which R201 allows (log entry 13). -/
def Obligations.SetupCompletes : Prop :=
  ∀ s : State, Reg.ctx ∈ s.held → s.op .p ≠ 0 → s.kernelAnswer = .ok →
    exec .setup s = .next
      { s.takeAnswer with lastUop := 0x14060800#32, ctx := some (ctxOf (s.op .p)), seq := s.nextSeq }

/-- R122, R224. SETUP with `op(P) = 0` fails with InvalidModulus whatever the kernel would answer, and the kernel is not
asked. MOD does the same, as R123 says it would; no run comes there (log entry 12). -/
def Obligations.ZeroModulusFails : Prop :=
  ∀ s : State, s.op .p = 0 →
    (Reg.ctx ∈ s.held →
      exec .setup s = .next
        { s with
          lastUop := 0x14060800#32, errUop := 0x14060800#32, err := some .invalidModulus, ctx := none,
          seq := .cleanup }) ∧
    (Reg.slot 1#8 ∈ s.held →
      exec .mod s = .next
        { s with
          lastUop := 0x18060504#32, errUop := 0x18060504#32, err := some .invalidModulus, slots := s.slots.set 1 none,
          seq := .cleanup })

/-- R123. MOD puts `op(G) mod op(P)` in `M[1]`. -/
def Obligations.ModCompletes : Prop :=
  ∀ s : State, Reg.slot 1#8 ∈ s.held → s.op .p ≠ 0 → s.kernelAnswer = .ok →
    exec .mod s = .next
      { s.takeAnswer with
        lastUop := 0x18060504#32, slots := s.slots.set 1 (some (s.op .g % s.op .p)), seq := s.nextSeq }

/-- R124. COPY puts the value of `M[1]` in the midpoint slot. -/
def Obligations.CopyCompletes : Prop :=
  ∀ (s : State) (mid : SlotIndex) (v : Nat), validWindow s.w = true → mid.toNat = 2 ^ (s.w - 1) →
    Reg.slot mid ∈ s.held → Reg.slot 1#8 ∈ s.held → s.slots[1] = some v → s.kernelAnswer = .ok →
    exec (.copy mid) s = .next
      { s.takeAnswer with
        lastUop := uopWord (.copy mid), slots := s.slots.set mid.toNat (some v), seq := s.nextSeq }

/-- R125. SQR squares its register exactly, and SQR_CNT counts it. -/
def Obligations.SquareCompletes : Prop :=
  ∀ (s : State) (v : Nat), s.kernelAnswer = .ok →
    (∀ mid : SlotIndex, validWindow s.w = true → mid.toNat = 2 ^ (s.w - 1) → Reg.slot mid ∈ s.held →
      s.slots[mid.toNat] = some v →
      exec (.sqrM mid) s = .next
        { s.takeAnswer with
          lastUop := uopWord (.sqrM mid), slots := s.slots.set mid.toNat (some (v * v)), sqrCnt := s.sqrCnt + 1#32,
          seq := s.nextSeq }) ∧
    (Reg.res ∈ s.held → s.res = some v →
      exec .sqrRes s = .next
        { s.takeAnswer with
          lastUop := 0x2C000000#32, res := some (v * v), sqrCnt := s.sqrCnt + 1#32, seq := s.nextSeq })

/-- R126. MUL puts the exact product in its destination, and MUL_CNT counts it. -/
def Obligations.MultiplyCompletes : Prop :=
  ∀ (s : State) (a b : Nat), s.kernelAnswer = .ok →
    (∀ k j : SlotIndex, validWindow s.w = true → 2 ^ (s.w - 1) < k.toNat → k.toNat < 2 ^ s.w → j.toNat + 1 = k.toNat →
      Reg.slot k ∈ s.held → Reg.slot j ∈ s.held → Reg.slot 1#8 ∈ s.held →
      s.slots[j.toNat] = some a → s.slots[1] = some b →
      exec (.mulM k j) s = .next
        { s.takeAnswer with
          lastUop := uopWord (.mulM k j), slots := s.slots.set k.toNat (some (a * b)), mulCnt := s.mulCnt + 1#32,
          seq := s.nextSeq }) ∧
    (∀ j : SlotIndex, validWindow s.w = true → (j.toNat = 1 ∨ 2 ^ (s.w - 1) ≤ j.toNat ∧ j.toNat < 2 ^ s.w) →
      Reg.res ∈ s.held → Reg.slot j ∈ s.held → s.res = some a → s.slots[j.toNat] = some b →
      exec (.mulRes j) s = .next
        { s.takeAnswer with
          lastUop := uopWord (.mulRes j), res := some (a * b), mulCnt := s.mulCnt + 1#32, seq := s.nextSeq })

/-- R127, R202. RED with the context of `op(P)` and an input below `op(P)^2` leaves the input mod `op(P)`, and RED_CNT counts
it. -/
def Obligations.ReduceCompletes : Prop :=
  ∀ (s : State) (v : Nat), s.kernelAnswer = .ok → Reg.ctx ∈ s.held → s.ctx = some (ctxOf (s.op .p)) →
    v < s.op .p * s.op .p →
    (∀ j : SlotIndex, validWindow s.w = true → 2 ^ (s.w - 1) ≤ j.toNat → j.toNat < 2 ^ s.w → Reg.slot j ∈ s.held →
      s.slots[j.toNat] = some v →
      exec (.redM j) s = .next
        { s.takeAnswer with
          lastUop := uopWord (.redM j), slots := s.slots.set j.toNat (some (v % s.op .p)),
          redCnt := s.redCnt + 1#32, seq := s.nextSeq }) ∧
    (Reg.res ∈ s.held → s.res = some v →
      exec .redRes s = .next
        { s.takeAnswer with
          lastUop := 0x3C020901#32, res := some (v % s.op .p), redCnt := s.redCnt + 1#32, seq := s.nextSeq })

/-- R128. SET1 puts `1 mod op(P)` in RES and never fails: the kernel is not asked. -/
def Obligations.Set1Completes : Prop :=
  ∀ s : State, Reg.res ∈ s.held → s.op .p ≠ 0 →
    exec .set1 s = .next { s with lastUop := 0x44020800#32, res := some (1 % s.op .p), seq := s.nextSeq }

/-- R129. EXCH writes word `i` of the accumulator to word `i` of Y_MEM for every `i < NWORDS`, and YLEN takes the number of
its significant words; RES has no value then, and the kernel is not asked. -/
def Obligations.ExchCompletes : Prop :=
  ∀ (s : State) (v : Nat), Reg.res ∈ s.held → s.res = some v →
    ∃ t, exec .exch s = .next t ∧
      (∀ i, i < s.params.nwords → Memory.loadWord t.mem (0x4000 + 4 * i) = some (BitVec.ofNat 32 (v / 2 ^ (32 * i)))) ∧
      t = { s with
            mem := t.mem, lastUop := 0x4C160000#32, ylen := BitVec.ofNat 32 ((bitLength v + 31) / 32), res := none,
            seq := s.nextSeq }

/-- R130. RELALL empties the held set and leaves no register with a value, and changes nothing else but LAST_UOP and the
position. -/
def Obligations.RelallCompletes : Prop :=
  ∀ s : State,
    exec .relall s = .next
      { s with
        lastUop := 0x50000000#32, held := [], slots := Vector.replicate 256 none, res := none, ctx := none,
        seq := s.nextSeq }

/-! ## Micro-ops: failures and model faults -/

/-- R226. A kernel failure is entered in the step that issues the micro-op: ERR and ERR_UOP record it, the destination loses its
value, and no other register, the held set, the counters and memory are as they were. -/
def Obligations.KernelFailureEntersCleanup : Prop :=
  ∀ (i : Instr) (s : State) (kind : FailKind), i.isUop = true → i ≠ .set1 → i ≠ .exch → i ≠ .relall →
    i.admitted s.w = true → preconditionFault s i = none → (i = .setup ∨ i = .mod → s.op .p ≠ 0) →
    kernelFailure i s.kernelAnswer = some kind →
    ∃ t, exec i s = .next t ∧ t.err = some kind ∧ t.errUop = uopWord i ∧ t.lastUop = uopWord i ∧ t.seq = .cleanup ∧
      (∀ d, destination i = some d → t.readReg d = none) ∧
      (∀ r, destination i ≠ some r → t.readReg r = s.readReg r) ∧
      t.held = s.held ∧ t.sqrCnt = s.sqrCnt ∧ t.mulCnt = s.mulCnt ∧ t.redCnt = s.redCnt ∧ t.mem = s.mem ∧
      t.ylen = s.ylen ∧ t.w = s.w

/-- R222. The failure a micro-op can leave in ERR is one of the kinds the rule gives it, and SET1, EXCH and RELALL leave
none. InvalidModulus comes of a zero modulus alone (R223, R224; for MOD, R123 and log entry 12). -/
def Obligations.FailureKindsOfEachUop : Prop :=
  ∀ (i : Instr) (s t : State), i.isUop = true → exec i s = .next t →
    t.err = s.err ∨
    (t.err = some .allocation ∧ i ≠ .set1 ∧ i ≠ .exch ∧ i ≠ .relall) ∨
    (t.err = some .arithmetic ∧
      (i = .setup ∨ i = .mod ∨ i = .sqrRes ∨ i = .redRes ∨ (∃ k, i = .sqrM k) ∨ (∃ k b, i = .mulM k b) ∨
        (∃ j, i = .mulRes j) ∨ ∃ j, i = .redM j)) ∨
    (t.err = some .invalidModulus ∧ s.op .p = 0 ∧ (i = .setup ∨ i = .mod))

/-- R131, R203, R236. A violated precondition is the model fault it names. That an earlier line of R131 is tested before a
later one is the model's choice (log entry 20). -/
def Obligations.PreconditionFaults : Prop :=
  ∀ (i : Instr) (s : State), i.isUop = true → i.admitted s.w = true →
    (∀ r, acquired i = some r → r ∈ s.held → exec i s = .fault .doubleAcquire) ∧
    (acquired i = none → (∃ r ∈ named i, r ∉ s.held) → exec i s = .fault .notHeld) ∧
    ((∀ r ∈ named i, r ∈ s.held) → (∃ r ∈ sources i, s.readReg r = none) → exec i s = .fault .unpopulatedRead) ∧
    (∀ d v c, reduced i = some d → d ∈ s.held → Reg.ctx ∈ s.held → s.readReg d = some v → s.ctx = some c →
      (c ≠ ctxOf (s.op .p) → exec i s = .fault .ctxMismatch) ∧
      (c = ctxOf (s.op .p) → s.op .p * s.op .p ≤ v → exec i s = .fault .reduceDomain))

/-- R88, R225. A micro-op whose operands the run's window size does not admit is an illegal one before anything else is
looked at. -/
def Obligations.UnadmittedFormsIllegal : Prop :=
  ∀ (i : Instr) (s : State), i.isUop = true → i.admitted s.w = false → exec i s = .fault .illegalUop

/-! ## Frames -/

/-- The frame of every micro-op but EXCH and RELALL: each register but the destination and the resource acquired, the held
set unless the micro-op is an ACQ, every byte of memory, YLEN, the lengths, IE, BUSY_WR, the window size, the program, the
scan registers and the parameters are unchanged; so are SQR_CNT but for SQR, MUL_CNT but for MUL and RED_CNT but for RED; and
ERR and ERR_UOP are unchanged unless a failure is entered. -/
def Obligations.UopFrame : Prop :=
  ∀ (i : Instr) (s t : State), i.isUop = true → i ≠ .exch → i ≠ .relall → exec i s = .next t →
    (∀ r, destination i ≠ some r → acquired i ≠ some r → t.readReg r = s.readReg r) ∧
    (acquired i = none → t.held = s.held) ∧
    (∀ a, Memory.loadByte t.mem a = Memory.loadByte s.mem a) ∧
    t.params = s.params ∧ t.ie = s.ie ∧ t.busyWr = s.busyWr ∧ t.glen = s.glen ∧ t.xlen = s.xlen ∧ t.plen = s.plen ∧
    t.ylen = s.ylen ∧ t.w = s.w ∧ t.prog = s.prog ∧ t.scan = s.scan ∧ t.rdata = s.rdata ∧ t.turns = s.turns ∧
    ((∀ k, i ≠ .sqrM k) → i ≠ .sqrRes → t.sqrCnt = s.sqrCnt) ∧
    ((∀ k b, i ≠ .mulM k b) → (∀ j, i ≠ .mulRes j) → t.mulCnt = s.mulCnt) ∧
    ((∀ j, i ≠ .redM j) → i ≠ .redRes → t.redCnt = s.redCnt) ∧
    (t.seq ≠ .cleanup → t.err = s.err ∧ t.errUop = s.errUop)

/-- The frame of EXCH and RELALL. EXCH leaves every byte outside the NWORDS words of Y_MEM and every register but RES
unchanged; RELALL leaves every byte of memory and YLEN unchanged; neither touches ERR, ERR_UOP, the counters, the lengths, IE,
BUSY_WR, the window size, the program, the scan registers or the parameters. -/
def Obligations.ExchRelallFrame : Prop :=
  ∀ (i : Instr) (s t : State), (i = .exch ∨ i = .relall) → exec i s = .next t →
    (∀ a, (i = .relall ∨ a < 0x4000 ∨ 0x4000 + 4 * s.params.nwords ≤ a) →
      Memory.loadByte t.mem a = Memory.loadByte s.mem a) ∧
    (i = .exch → t.held = s.held ∧ ∀ r, r ≠ .res → t.readReg r = s.readReg r) ∧ (i = .relall → t.ylen = s.ylen) ∧
    t.params = s.params ∧ t.ie = s.ie ∧ t.busyWr = s.busyWr ∧ t.err = s.err ∧ t.errUop = s.errUop ∧
    t.glen = s.glen ∧ t.xlen = s.xlen ∧ t.plen = s.plen ∧ t.sqrCnt = s.sqrCnt ∧ t.mulCnt = s.mulCnt ∧
    t.redCnt = s.redCnt ∧ t.w = s.w ∧ t.prog = s.prog ∧ t.scan = s.scan ∧ t.rdata = s.rdata ∧ t.turns = s.turns ∧
    t.kernel = s.kernel ∧ t.draws = s.draws

/-- R20, R40, R70. No host transaction reaches the datapath, the held set, the result length, the program, the scan registers
or the parameters. -/
def Obligations.HostDatapathFrame : Prop :=
  ∀ (i : Instr) (s t : State), i.isUop = false → exec i s = .next t →
    (∀ r, t.readReg r = s.readReg r) ∧ t.held = s.held ∧ t.ylen = s.ylen ∧ t.prog = s.prog ∧ t.scan = s.scan ∧
    t.params = s.params ∧ t.kernel = s.kernel ∧ t.turns = s.turns

/-- R62, R66, R69. A host write changes no byte of memory but those of the operand word it stores to, and a transaction that
stores to none changes none: one that is no write of a word `k < NWORDS` of G_MEM, X_MEM or P_MEM, and any while busy. -/
def Obligations.HostMemoryFrame : Prop :=
  ∀ (i : Instr) (s t : State), i.isUop = false → exec i s = .next t → ∀ a : Nat,
    (∀ o k, s.storesWord i o k → a < o.base + 4 * k ∨ o.base + 4 * k + 4 ≤ a) →
    Memory.loadByte t.mem a = Memory.loadByte s.mem a

/-! ## Host reads -/

/-- R100, R27 to R35, R108. A host read of a register puts the register's value on the bus and changes nothing else. -/
def Obligations.HostReadsRegisters : Prop :=
  ∀ s : State,
    exec (.busRd 0x0000#15) s = .next { s with rdata := 0x4D455850#32 } ∧
    exec (.busRd 0x0004#15) s = .next { s with rdata := if s.ie then 4#32 else 0#32 } ∧
    exec (.busRd 0x0008#15) s = .next { s with rdata := s.statusWord } ∧
    exec (.busRd 0x000C#15) s =
      .next { s with rdata := BitVec.ofNat 32 (s.params.nwords % 2 ^ 16 + s.params.digitBit % 2 ^ 8 * 2 ^ 16) } ∧
    exec (.busRd 0x0010#15) s = .next { s with rdata := s.glen } ∧
    exec (.busRd 0x0014#15) s = .next { s with rdata := s.xlen } ∧
    exec (.busRd 0x0018#15) s = .next { s with rdata := s.plen } ∧
    exec (.busRd 0x001C#15) s = .next { s with rdata := s.ylen } ∧
    exec (.busRd 0x0020#15) s = .next { s with rdata := BitVec.ofNat 32 s.held.length } ∧
    exec (.busRd 0x0024#15) s = .next { s with rdata := s.sqrCnt } ∧
    exec (.busRd 0x0028#15) s = .next { s with rdata := s.mulCnt } ∧
    exec (.busRd 0x002C#15) s = .next { s with rdata := s.redCnt } ∧
    exec (.busRd 0x0030#15) s = .next { s with rdata := s.lastUop } ∧
    exec (.busRd 0x0034#15) s = .next { s with rdata := s.errUop }

/-- R100, R71. A host read of a memory word returns what was written there, or a free draw where nothing was, and changes
nothing else of the block. -/
def Obligations.HostReadsMemory : Prop :=
  ∀ (s : State) (base : Nat) (i : Nat) (off : Offset), base ∈ [0x1000, 0x2000, 0x3000, 0x4000] → i < s.params.nwords →
    i < 1024 → off.toNat / 4 * 4 = base + 4 * i →
    (∀ v, Memory.loadWord s.mem (base + 4 * i) = some v → exec (.busRd off) s = .next { s with rdata := v }) ∧
    (Memory.loadWord s.mem (base + 4 * i) = none →
      exec (.busRd off) s = .next { s with rdata := Config.freeWord s.draws, draws := s.draws + 1 })

/-- R108, R30, R221. A read of STATUS gives its word, whose fields and reserved bits are these, for a window size that fits
its field (the invariant has `w <= 8`). -/
def Obligations.StatusFields : Prop :=
  ∀ s : State, s.w < 16 →
    exec (.busRd 0x0008#15) s = .next { s with rdata := s.statusWord } ∧
    ((s.statusWord.extractLsb' 0 2).toNat =
      match s.seq with
      | .idle => 0
      | .select | .run _ | .cleanup => 1
      | .done => 2
      | .error => 3) ∧
    s.statusWord.extractLsb' 2 2 = 0#2 ∧
    ((s.statusWord.extractLsb' 4 4).toNat =
      match s.err with
      | none => 0
      | some .allocation => 1
      | some .arithmetic => 2
      | some .invalidModulus => 3) ∧
    (s.statusWord.extractLsb' 8 4).toNat = s.w ∧
    s.statusWord.extractLsb' 12 1 = BitVec.ofBool s.busyWr ∧
    s.statusWord.extractLsb' 13 1 = BitVec.ofBool s.irq ∧
    s.statusWord.extractLsb' 14 18 = 0#18

/-- R233. The interrupt output is `IE and STATE in {DONE, ERROR}`; an accepted CLEAR or START lowers it, and so does
`IE = 0`. -/
def Obligations.InterruptLevel : Prop :=
  ∀ s : State,
    (s.irq = true ↔ s.ie = true ∧ (s.seq = .done ∨ s.seq = .error)) ∧
    (∀ t, exec (.cmdNone false) s = .next t → t.irq = false) ∧
    (∀ b t, exec (.cmdClear b) s = .next t → t.irq = false) ∧
    (∀ b t, exec (.cmdStart b) s = .next t → t.irq = false)

/-- R65. `off[1:0]` does not matter: a transaction acts as the one with the aligned offset. -/
def Obligations.OffsetLowBitsIgnored : Prop :=
  ∀ (s : State) (we : BitVec 1) (off : Offset) (data : Word),
    exec (decodeHost (packHost we off data)) s = exec (decodeHost (packHost we (off &&& 0x7FFC#15) data)) s

/-- R67, R61. A read of a reserved offset returns 0, and a write to one is ignored and sets no flag, busy or not. That this wins
over the write lock for a word `i >= NWORDS` of an operand window is read from R61, R62 and R67 (log entry 28). -/
def Obligations.ReservedOffsetsInert : Prop :=
  ∀ (s : State) (off : Offset) (data : Word), reservedOffset s.params off →
    exec (.busRd off) s = .next { s with rdata := 0#32 } ∧ exec (.busWr off data) s = .next s ∧
    exec (decodeWrite off data) s = .next s

/-- R68. A write to a read-only register or to Y_MEM is ignored and sets no flag. -/
def Obligations.ReadOnlyTargetsInert : Prop :=
  ∀ (s : State) (off : Offset) (data : Word), readOnlyOffset s.params off →
    exec (.busWr off data) s = .next s ∧ exec (decodeWrite off data) s = .next s

/-! ## Host writes and commands -/

/-- R101. Whatever row of the opcode table takes a host write, the write does what R101 says for its offset. -/
def Obligations.BusWrAgreesWithRows : Prop :=
  ∀ (s : State) (off : Offset) (data : Word), exec (decodeWrite off data) s = exec (.busWr off data) s

/-- R69. While the block is busy, a write of a length or of an operand word is dropped and sets BUSY_WR. -/
def Obligations.WriteLockDropsWrites : Prop :=
  ∀ (s : State) (data : Word), s.busy = true →
    exec (.glenWr data) s = .next { s with busyWr := true } ∧
    exec (.xlenWr data) s = .next { s with busyWr := true } ∧
    exec (.plenWr data) s = .next { s with busyWr := true } ∧
    ∀ n : BitVec 10, n.toNat < s.params.nwords →
      exec (.gMemWr n data) s = .next { s with busyWr := true } ∧
      exec (.xMemWr n data) s = .next { s with busyWr := true } ∧
      exec (.pMemWr n data) s = .next { s with busyWr := true }

/-- R69. From an accepted START to the end of the run the operands do not change: no step between two busy states changes an
operand's value. -/
def Obligations.OperandsConstantDuringRun : Prop :=
  ∀ s t : State, s.Inv → step s = .next t → s.busy = true → t.busy = true → ∀ a, t.op a = s.op a

/-- R106, R31. A length write outside a run stores the smaller of the data and NWORDS, while busy it is dropped and sets
BUSY_WR, and a length of 0 makes the operand 0. -/
def Obligations.LengthWriteClamps : Prop :=
  ∀ (s : State) (data : Word),
    (s.busy = false →
      exec (.glenWr data) s = .next { s with glen := BitVec.ofNat 32 (min data.toNat s.params.nwords) } ∧
      exec (.xlenWr data) s = .next { s with xlen := BitVec.ofNat 32 (min data.toNat s.params.nwords) } ∧
      exec (.plenWr data) s = .next { s with plen := BitVec.ofNat 32 (min data.toNat s.params.nwords) }) ∧
    (s.busy = true →
      exec (.glenWr data) s = .next { s with busyWr := true } ∧
      exec (.xlenWr data) s = .next { s with busyWr := true } ∧
      exec (.plenWr data) s = .next { s with busyWr := true }) ∧
    (BitVec.ofNat 32 (min data.toNat s.params.nwords)).toNat = min data.toNat s.params.nwords ∧
    ∀ a, s.len a = 0#32 → s.op a = 0

/-- R107, R61. Outside a run a write of operand word `n < NWORDS` makes that word read as the data, and every other word of the
memories as before; nothing else changes, and the operand does not where `n` is not below its length. While busy the write is
dropped and sets BUSY_WR. A word `n >= NWORDS` is reserved: the write is ignored, busy or not; that this wins over the write
lock is read from R61, R62 and R67 (log entry 28). -/
def Obligations.OperandWordWriteStores : Prop :=
  ∀ (s : State) (n : BitVec 10) (data : Word) (i : Instr) (o : Operand) (a : Nat),
    ((i = .gMemWr n data ∧ o = .g ∧ a = 0x1000 + 4 * n.toNat) ∨ (i = .xMemWr n data ∧ o = .x ∧ a = 0x2000 + 4 * n.toNat) ∨
      (i = .pMemWr n data ∧ o = .p ∧ a = 0x3000 + 4 * n.toNat)) →
    (s.busy = false → n.toNat < s.params.nwords →
      ∃ t, exec i s = .next t ∧ t = { s with mem := t.mem } ∧ Memory.loadWord t.mem a = some data ∧
        (∀ b, (b + 4 ≤ a ∨ a + 4 ≤ b) → Memory.loadWord t.mem b = Memory.loadWord s.mem b) ∧
        ((s.len o).toNat ≤ n.toNat → t.op o = s.op o)) ∧
    (s.busy = true → n.toNat < s.params.nwords → exec i s = .next { s with busyWr := true }) ∧
    (s.params.nwords ≤ n.toNat → exec i s = .next s)

/-- R105. CMD_NONE writes IE in every state and nothing else, and every other CTRL write that answers a next state has written
IE too. IRQ follows at once: it is `IE and STATE in {DONE, ERROR}` of the state with the new IE. -/
def Obligations.CmdNoneUpdatesIe : Prop :=
  ∀ (s : State) (b : Bool),
    exec (.cmdNone b) s = .next { s with ie := b } ∧
    (∀ i t, (i = .cmdStart b ∨ i = .cmdClear b ∨ i = .cmdClearStart b) → exec i s = .next t → t.ie = b) ∧
    (({ s with ie := b } : State).irq = true ↔ b = true ∧ (s.seq = .done ∨ s.seq = .error))

/-- R103, R109. START with IE written first: dropped while busy; a model fault where an operand word below its length was never
written; else a run begins, with nothing held. -/
def Obligations.StartCommand : Prop :=
  ∀ (s : State) (b : Bool),
    (s.busy = true → exec (.cmdStart b) s = .next { s with ie := b, busyWr := true }) ∧
    (s.busy = false → (∃ a i, i < (s.len a).toNat ∧ Memory.loadWord s.mem (a.base + 4 * i) = none) →
      exec (.cmdStart b) s = .fault .unwrittenOperand) ∧
    (s.busy = false → (∀ a i, i < (s.len a).toNat → Memory.loadWord s.mem (a.base + 4 * i) ≠ none) →
      exec (.cmdStart b) s = .next
        { s with
          ie := b, err := none, errUop := 0#32, lastUop := 0#32, sqrCnt := 0#32, mulCnt := 0#32, redCnt := 0#32,
          w := 0, busyWr := false, seq := .select }) ∧
    (s.Inv → s.busy = false → s.held = [])

/-- R104. CLEAR with IE written first: dropped while busy; else the block is in Idle with ERR, ERR_UOP and BUSY_WR clear and
the rest kept. -/
def Obligations.ClearCommand : Prop :=
  ∀ (s : State) (b : Bool),
    (s.busy = true → exec (.cmdClear b) s = .next { s with ie := b, busyWr := true }) ∧
    (s.busy = false →
      exec (.cmdClear b) s = .next { s with ie := b, seq := .idle, err := none, errUop := 0#32, busyWr := false })

/-- R102. CMD_CLEAR_START drops both commands while busy; else it clears and begins a run in one step, if the operands are
written. -/
def Obligations.ClearStartCommand : Prop :=
  ∀ (s : State) (b : Bool),
    (s.busy = true → exec (.cmdClearStart b) s = .next { s with ie := b, busyWr := true }) ∧
    (s.busy = false → (∀ a i, i < (s.len a).toNat → Memory.loadWord s.mem (a.base + 4 * i) ≠ none) →
      exec (.cmdClearStart b) s = .next
        { s with
          ie := b, err := none, errUop := 0#32, lastUop := 0#32, sqrCnt := 0#32, mulCnt := 0#32, redCnt := 0#32,
          w := 0, busyWr := false, seq := .select }) ∧
    (s.busy = false → (∃ a i, i < (s.len a).toNat ∧ Memory.loadWord s.mem (a.base + 4 * i) = none) →
      exec (.cmdClearStart b) s = .fault .unwrittenOperand)

/-! ## The issue program -/

/-- R150. The row of the rule's table for each range of bit lengths: the window size, the number of slots, the midpoint, and
the first and the last slot of the upper half. With `NWORDS = 256` an exponent has at most 8192 bits. -/
def Obligations.WindowSizeSelection : Prop :=
  (∀ b w : Nat, w = windowSize b → ∃ row, row = (w, 2 ^ w, midSlot w, midSlot w + 1, 2 ^ w - 1) ∧
    (b ≤ 7 → row = (2, 4, 2, 3, 3)) ∧ (8 ≤ b ∧ b ≤ 36 → row = (3, 8, 4, 5, 7)) ∧
    (37 ≤ b ∧ b ≤ 140 → row = (4, 16, 8, 9, 15)) ∧ (141 ≤ b ∧ b ≤ 450 → row = (5, 32, 16, 17, 31)) ∧
    (451 ≤ b ∧ b ≤ 1303 → row = (6, 64, 32, 33, 63)) ∧ (1304 ≤ b ∧ b ≤ 3529 → row = (7, 128, 64, 65, 127)) ∧
    (3530 ≤ b → row = (8, 256, 128, 129, 255))) ∧
  ∀ s : State, s.Inv → s.params.nwords = 256 → bitLength (s.op .x) ≤ 8192

/-- R160. The length of the table build, phase by phase, and its numbers of squarings, multiplications and reductions. -/
def Obligations.BuildLength : Prop :=
  ∀ w : Nat, 2 ≤ w → w ≤ 8 →
    (buildProgram w).length = 2 ^ (w + 1) + 2 * w ∧
    (∃ rest, buildProgram w = allocPhase w ++ [.acqCtx, .setup, .mod, .copy (slotIndex (midSlot w))] ++ rest ∧
      (allocPhase w).length = 2 ^ w ∧ rest.length = 2 * (w - 1) + 2 * (2 ^ (w - 1) - 1)) ∧
    (buildProgram w).countP isSqr = w - 1 ∧ (buildProgram w).countP isMul = 2 ^ (w - 1) - 1 ∧
    (buildProgram w).countP isRed = w - 1 + (2 ^ (w - 1) - 1) ∧ (w = 2 → (buildProgram w).length = 12)

/-- R187, R208. In the issue program of an exponent of `b` bits there are `w - 1 + b` squarings, and one reduction for each
squaring and each multiplication. -/
def Obligations.ProgramCounts : Prop :=
  ∀ d x w : Nat, 1 ≤ d → w = windowSize (bitLength x) →
    (issueProgram d x w).countP isSqr = w - 1 + bitLength x ∧
    (issueProgram d x w).countP isRed = (issueProgram d x w).countP isSqr + (issueProgram d x w).countP isMul

/-- R87, R185. Every micro-op of an issue program is a form that R87 admits for its window size: the table is read at `M[1]`
and at the populated slots alone. -/
def Obligations.ProgramFormsAdmitted : Prop :=
  ∀ d x w : Nat, 1 ≤ d → w = windowSize (bitLength x) →
    ∀ i ∈ issueProgram d x w, i.isUop = true ∧ i.admitted w = true

/-- R177. The micro-ops of the scan do not depend on the digit width. -/
def Obligations.DigitWidthUnobservable : Prop :=
  ∀ d e x w : Nat, 1 ≤ d → 1 ≤ e → (runScan d x w).2 = (runScan e x w).2

/-! ## Runs -/

/-- R190, R236, R271. From an accepted START, whatever the kernel answers, whatever the host does between the engine's steps, and
with no reset, a run meets no model fault and ends in Done or Error after at most one engine step more than its program has
micro-ops. -/
def Obligations.RunEndsWithoutFault : Prop :=
  ∀ s : State, s.AtStart →
    ∃ e t, e ≤ 1 + s.program.length ∧ reaches (stepsFor s.turns e) s t ∧ (t.seq = .done ∨ t.seq = .error)

/-- R158. When nothing of the table build failed, the table holds the powers of the base that R158 lists, and no other slot
has a value, whatever the host did between the engine's steps and with no reset. -/
def Obligations.BuildFillsTable : Prop :=
  ∀ (s : State) (w : Nat), s.AtStart → w = windowSize (bitLength (s.op .x)) → s.op .p ≠ 0 →
    s.kernelOk (buildProgram w).length →
    ∃ t, reaches (stepsFor s.turns (1 + (buildProgram w).length)) s t ∧ t.seq = .run (buildProgram w).length ∧
      (∀ r, r ∈ t.held ↔ r = .ctx ∨ ∃ k : SlotIndex, r = .slot k ∧ k.toNat < 2 ^ w) ∧
      t.ctx = some (ctxOf (s.op .p)) ∧ t.res = none ∧
      ∀ k : SlotIndex, t.readReg (.slot k) =
        if k.toNat = 1 ∨ (2 ^ (w - 1) ≤ k.toNat ∧ k.toNat < 2 ^ w) then some (s.op .g ^ k.toNat % s.op .p) else none

/-- R188, R69. For `op(P) >= 1`, a run in which the kernel never fails ends in Done with `Y = op(G)^op(X) mod op(P)` in Y_MEM, for
the operands at START, and with its number of significant words in YLEN, after one engine step for Select and one for each
micro-op, with nothing held, whatever the host did between the engine's steps and with no reset. -/
def Obligations.RunComputesPower : Prop :=
  ∀ s : State, s.AtStart → s.op .p ≠ 0 → s.kernelOk s.program.length →
    ∃ t, reaches (stepsFor s.turns (1 + s.program.length)) s t ∧ t.seq = .done ∧ t.err = none ∧ t.held = [] ∧
      t.result = s.op .g ^ s.op .x % s.op .p ∧
      t.ylen.toNat = (bitLength (s.op .g ^ s.op .x % s.op .p) + 31) / 32

/-- R228, R230, R70. Where a run has ended in Error, everything is released, the failure is recorded, the last micro-op was
RELALL, and YLEN and every byte of memory are as they were before the run, whatever the host did between the engine's steps and
with no reset. This holds until the first turn of the host after the end of the run, which may begin another one. -/
def Obligations.FailedRunLeavesOutput : Prop :=
  ∀ (s t : State) (n : Nat), s.AtStart → reaches n s t → t.seq = .error →
    (∀ m r, m < n → reaches m s r → r.busy = true ∨ r.enginesTurn) →
    t.held = [] ∧ t.live = 0 ∧ t.err.isSome = true ∧ t.errUop ≠ 0#32 ∧ t.lastUop = 0x50000000#32 ∧
    t.w = windowSize (bitLength (s.op .x)) ∧ t.irq = t.ie ∧ t.ylen = s.ylen ∧
    ∀ a, Memory.loadByte t.mem a = Memory.loadByte s.mem a

/-- R70, R62. Y_MEM and YLEN change in no step but one that issues EXCH, or a reset. -/
def Obligations.OutputChangesOnlyByExch : Prop :=
  ∀ s t : State, step s = .next t →
    s.nextAction = .run .exch ∨ s.nextAction = .reset ∨
    (t.ylen = s.ylen ∧
      ∀ a, 0x4000 ≤ a → a < 0x4000 + 4 * s.params.nwords → Memory.loadByte t.mem a = Memory.loadByte s.mem a)

/-- R209, R202. The classical Barrett reduction that R209 describes for information computes `x mod m` on the domain of the value
contract, for digits of at least two bits. The model writes its correction loop out as two passes, and leaves out
`DIGIT_BIT = 1`, which R10 admits and for which the algorithm fails (log entry 30). -/
def Obligations.ClassicalBarrettAgrees : Prop :=
  ∀ d x m : Nat, 2 ≤ d → 1 ≤ m → x < m * m → classicalReduce d x m = x % m
end

