-- ==== Sys2Proof/Laws/Decode.lean ====
section
/-! SUPPORT. The fields of a packed word, selectors, and reading fields back from them: the pieces that decoding and encoding
agree by. -/

namespace Sys2Proof

/-! ## Fields -/

/-- The fields of a packed micro-op word are those it was packed from (R83). -/
theorem packUop_op (op : BitVec 5) (a b c : BitVec 9) : (packUop op a b c).extractLsb' 27 5 = op := by
  unfold packUop
  ext i hi
  simp only [BitVec.getElem_extractLsb', BitVec.getLsbD_append]
  have h1 : ¬ 27 + i < 9 := by omega
  have h2 : ¬ 27 + i - 9 < 9 := by omega
  have h3 : ¬ 27 + i - 9 - 9 < 9 := by omega
  simp only [h1, h2, h3, if_false]
  rw [show 27 + i - 9 - 9 - 9 = i by omega, BitVec.getLsbD_eq_getElem hi]

theorem packUop_a (op : BitVec 5) (a b c : BitVec 9) : (packUop op a b c).extractLsb' 18 9 = a := by
  unfold packUop
  ext i hi
  simp only [BitVec.getElem_extractLsb', BitVec.getLsbD_append]
  have h1 : ¬ 18 + i < 9 := by omega
  have h2 : ¬ 18 + i - 9 < 9 := by omega
  have h3 : 18 + i - 9 - 9 < 9 := by omega
  simp only [h1, h2, h3, if_true, if_false]
  rw [show 18 + i - 9 - 9 = i by omega, BitVec.getLsbD_eq_getElem hi]

theorem packUop_b (op : BitVec 5) (a b c : BitVec 9) : (packUop op a b c).extractLsb' 9 9 = b := by
  unfold packUop
  ext i hi
  simp only [BitVec.getElem_extractLsb', BitVec.getLsbD_append]
  have h1 : ¬ 9 + i < 9 := by omega
  have h2 : 9 + i - 9 < 9 := by omega
  simp only [h1, h2, if_true, if_false]
  rw [show 9 + i - 9 = i by omega, BitVec.getLsbD_eq_getElem hi]

theorem packUop_c (op : BitVec 5) (a b c : BitVec 9) : (packUop op a b c).extractLsb' 0 9 = c := by
  unfold packUop
  ext i hi
  simp only [BitVec.getElem_extractLsb', BitVec.getLsbD_append]
  have h1 : 0 + i < 9 := by omega
  simp only [h1, if_true]
  rw [show 0 + i = i by omega, BitVec.getLsbD_eq_getElem hi]

/-- A word is packed from its own fields. -/
theorem packUop_fields (u : Word) :
    packUop (u.extractLsb' 27 5) (u.extractLsb' 18 9) (u.extractLsb' 9 9) (u.extractLsb' 0 9) = u := by
  unfold packUop
  ext i hi
  simp only [BitVec.getElem_append, BitVec.getElem_extractLsb']
  split
  · rw [BitVec.getLsbD_eq_getElem (by omega)]; congr 1; omega
  · split
    · rw [BitVec.getLsbD_eq_getElem (by omega)]; congr 1; omega
    · split <;> · rw [BitVec.getLsbD_eq_getElem (by omega)]; congr 1; omega

/-- The fields of a packed host transaction are those it was packed from (R81). -/
theorem packHost_we (we : BitVec 1) (off : Offset) (data : Word) : (packHost we off data).extractLsb' 47 1 = we := by
  unfold packHost
  ext i hi
  simp only [BitVec.getElem_extractLsb', BitVec.getLsbD_append]
  have h1 : ¬ 47 + i < 32 := by omega
  have h2 : ¬ 47 + i - 32 < 15 := by omega
  simp only [h1, h2, if_false]
  rw [show 47 + i - 32 - 15 = i by omega, BitVec.getLsbD_eq_getElem hi]

theorem packHost_off (we : BitVec 1) (off : Offset) (data : Word) :
    (packHost we off data).extractLsb' 32 15 = off := by
  unfold packHost
  ext i hi
  simp only [BitVec.getElem_extractLsb', BitVec.getLsbD_append]
  have h1 : ¬ 32 + i < 32 := by omega
  have h2 : 32 + i - 32 < 15 := by omega
  simp only [h1, h2, if_true, if_false]
  rw [show 32 + i - 32 = i by omega, BitVec.getLsbD_eq_getElem hi]

theorem packHost_data (we : BitVec 1) (off : Offset) (data : Word) :
    (packHost we off data).extractLsb' 0 32 = data := by
  unfold packHost
  ext i hi
  simp only [BitVec.getElem_extractLsb', BitVec.getLsbD_append]
  have h1 : 0 + i < 32 := by omega
  simp only [h1, if_true]
  rw [show 0 + i = i by omega, BitVec.getLsbD_eq_getElem hi]

/-! ## Selectors -/

/-- A selector's value names the selector (R86). -/
@[simp] theorem Sel.ofBits_bits (s : Sel) : Sel.ofBits s.bits = some s := by
  cases s with
  | slot k => revert k; decide
  | _ => decide

/-- Only the value of a selector names it (R86). -/
theorem Sel.bits_of_ofBits {b : BitVec 9} {s : Sel} (h : Sel.ofBits b = some s) : s.bits = b := by
  have key : ∀ b : BitVec 9, (Sel.ofBits b).all (fun s => s.bits == b) = true := by decide
  have := key b
  simpa [h] using this

/-! ## Decoding by fields -/

/-- Decoding a packed word reads its fields (R92). -/
theorem decodeUop_packUop (op : BitVec 5) (a b c : BitVec 9) :
    decodeUop (packUop op a b c) = decodeFields op a b c := by
  simp only [decodeUop, packUop_op, packUop_a, packUop_b, packUop_c]

/-- Decoding a packed host write reads its fields (R81). -/
theorem decodeHost_write (off : Offset) (data : Word) :
    decodeHost (packHost 1#1 off data) = decodeWrite off data := by
  simp only [decodeHost, packHost_we, packHost_off, packHost_data]
  rw [if_neg (by decide)]

/-- Decoding a packed host read reads its offset (R81). -/
theorem decodeHost_read (off : Offset) (data : Word) : decodeHost (packHost 0#1 off data) = .busRd off := by
  simp only [decodeHost, packHost_we, packHost_off, if_true]

/-- The word index of an operand window's offset (R61). -/
theorem windowOffset_index (window : BitVec 3) (i : BitVec 10) :
    (window ++ i ++ 0#2 : BitVec 15).extractLsb' 2 13 = window ++ i := by
  ext k hk
  simp only [BitVec.getElem_extractLsb', BitVec.getLsbD_append]
  have h1 : ¬ 2 + k < 2 := by omega
  simp only [h1, if_false]
  rw [show 2 + k - 2 = k by omega, ← BitVec.getLsbD_append, BitVec.getLsbD_eq_getElem hk]

/-- The window number of an operand window's offset (R61). -/
theorem windowOffset_window (window : BitVec 3) (i : BitVec 10) :
    (window ++ i ++ 0#2 : BitVec 15).extractLsb' 12 3 = window := by
  ext k hk
  simp only [BitVec.getElem_extractLsb', BitVec.getLsbD_append]
  have h1 : ¬ 12 + k < 2 := by omega
  have h2 : ¬ 12 + k - 2 < 10 := by omega
  simp only [h1, h2, if_false]
  rw [show 12 + k - 2 - 10 = k by omega, BitVec.getLsbD_eq_getElem hk]

/-- The word number of an operand window's offset (R61). -/
theorem windowOffset_word (window : BitVec 3) (i : BitVec 10) :
    (window ++ i ++ 0#2 : BitVec 15).extractLsb' 2 10 = i := by
  ext k hk
  simp only [BitVec.getElem_extractLsb', BitVec.getLsbD_append]
  have h1 : ¬ 2 + k < 2 := by omega
  have h2 : 2 + k - 2 < 10 := by omega
  simp only [h1, h2, if_true, if_false]
  rw [show 2 + k - 2 = k by omega, BitVec.getLsbD_eq_getElem hk]

/-- An operand window's offset is no register's: its word index has the window in its top bits. -/
theorem windowIndex_ne {window : BitVec 3} (hw : window ≠ 0#3) (i : BitVec 10) {r : BitVec 13}
    (hr : r.extractLsb' 10 3 = 0#3) : (window ++ i : BitVec 13) ≠ r := by
  intro h
  apply hw
  rw [← hr, ← h]
  ext k hk
  simp only [BitVec.getElem_extractLsb', BitVec.getLsbD_append]
  have h1 : ¬ 10 + k < 10 := by omega
  simp only [h1, if_false]
  rw [show 10 + k - 10 = k by omega, BitVec.getLsbD_eq_getElem hk]

end Sys2Proof
end

