-- ==== Sys2Proof/Laws/Memory.lean ====
section
/-! SUPPORT. Memory: a read after a write, the canonical form, and the words of a value. -/

namespace Sys2Proof.Machine

/-! ## Bytes -/

@[simp] theorem loadByte_nil (a : Nat) : Memory.loadByte [] a = none := rfl

/-- The byte just written reads as written. -/
@[simp] theorem loadByte_storeByte_same (m : List Host.Cell) (a : Nat) (b : Byte) :
    Memory.loadByte (Memory.storeByte m a b) a = some b := by
  induction m with
  | nil => simp [Memory.storeByte, Memory.loadByte]
  | cons c rest ih =>
    unfold Memory.storeByte
    split
    · simp [Memory.loadByte]
    · split
      · simp [Memory.loadByte]
      · rename_i h1 h2
        simp only [Memory.loadByte]
        rw [if_neg (fun h => h2 h.symm), ih]

/-- Every other byte reads as before. -/
theorem loadByte_storeByte_other (m : List Host.Cell) {a c : Nat} (b : Byte) (h : c ≠ a) :
    Memory.loadByte (Memory.storeByte m a b) c = Memory.loadByte m c := by
  induction m with
  | nil => simp [Memory.storeByte, Memory.loadByte, Ne.symm h]
  | cons d rest ih =>
    unfold Memory.storeByte
    split
    · simp [Memory.loadByte, Ne.symm h]
    · split
      · rename_i h2
        simp only [Memory.loadByte]
        rw [if_neg (Ne.symm h), if_neg (h2 ▸ Ne.symm h)]
      · simp only [Memory.loadByte, ih]

/-- A byte write as one equation. -/
theorem loadByte_storeByte (m : List Host.Cell) (a c : Nat) (b : Byte) :
    Memory.loadByte (Memory.storeByte m a b) c = if c = a then some b else Memory.loadByte m c := by
  split
  · subst c; simp
  · exact loadByte_storeByte_other m b ‹_›

/-- The offsets listed after a write: those before, and the one written. -/
theorem mem_storeByte {m : List Host.Cell} {a : Nat} {b : Byte} {c : Host.Cell}
    (h : c ∈ Memory.storeByte m a b) : c ∈ m ∨ c.1 = a := by
  induction m with
  | nil => simp [Memory.storeByte] at h; exact .inr (by simp [h])
  | cons d rest ih =>
    unfold Memory.storeByte at h
    split at h
    · rcases List.mem_cons.1 h with rfl | h
      · exact .inr rfl
      · exact .inl h
    · split at h
      · rcases List.mem_cons.1 h with rfl | h
        · exact .inr rfl
        · exact .inl (List.mem_cons_of_mem _ h)
      · rcases List.mem_cons.1 h with rfl | h
        · exact .inl List.mem_cons_self
        · exact (ih h).imp_left (List.mem_cons_of_mem _)

/-- A byte write keeps the canonical form. -/
theorem storeByte_wf {m : List Host.Cell} (h : Memory.wf m) (a : Nat) (b : Byte) :
    Memory.wf (Memory.storeByte m a b) := by
  induction m with
  | nil => simp [Memory.storeByte, Memory.wf]
  | cons d rest ih =>
    simp only [Memory.wf, List.map_cons, List.pairwise_cons] at h
    obtain ⟨hd, hrest⟩ := h
    unfold Memory.storeByte
    split
    · rename_i hlt
      simp only [Memory.wf, List.map_cons, List.pairwise_cons, List.mem_cons, forall_eq_or_imp]
      exact ⟨⟨hlt, fun x hx => Nat.lt_trans hlt (hd x hx)⟩, hd, hrest⟩
    · split
      · rename_i heq
        simp only [Memory.wf, List.map_cons, List.pairwise_cons]
        exact ⟨heq ▸ hd, hrest⟩
      · rename_i hge hne
        simp only [Memory.wf, List.map_cons, List.pairwise_cons]
        refine ⟨fun x hx => ?_, ih hrest⟩
        obtain ⟨c, hc, rfl⟩ := List.mem_map.1 hx
        rcases mem_storeByte hc with hc | hc
        · exact hd _ (List.mem_map_of_mem hc)
        · omega

/-! ## Words -/

/-- A word write keeps the canonical form. -/
theorem storeWord_wf {m : List Host.Cell} (h : Memory.wf m) (a : Nat) (v : Word) :
    Memory.wf (Memory.storeWord m a v) :=
  storeByte_wf (storeByte_wf (storeByte_wf (storeByte_wf h _ _) _ _) _ _) _ _

/-- The offsets listed after a word write: those before, and the word's four bytes. -/
theorem mem_storeWord {m : List Host.Cell} {a : Nat} {v : Word} {c : Host.Cell}
    (h : c ∈ Memory.storeWord m a v) : c ∈ m ∨ (a ≤ c.1 ∧ c.1 < a + 4) := by
  rcases mem_storeByte h with h | h
  · rcases mem_storeByte h with h | h
    · rcases mem_storeByte h with h | h
      · rcases mem_storeByte h with h | h
        · exact .inl h
        · exact .inr (by omega)
      · exact .inr (by omega)
    · exact .inr (by omega)
  · exact .inr (by omega)

/-- A byte outside the word written reads as before. -/
theorem loadByte_storeWord_other (m : List Host.Cell) {a c : Nat} (v : Word) (h : c < a ∨ a + 4 ≤ c) :
    Memory.loadByte (Memory.storeWord m a v) c = Memory.loadByte m c := by
  unfold Memory.storeWord
  rw [loadByte_storeByte_other _ _ (by omega), loadByte_storeByte_other _ _ (by omega),
    loadByte_storeByte_other _ _ (by omega), loadByte_storeByte_other _ _ (by omega)]

/-- The four bytes of a word give the word back. -/
@[simp] theorem wordOfBytes_byteOf (v : Word) :
    wordOfBytes (byteOf v 0) (byteOf v 1) (byteOf v 2) (byteOf v 3) = v := by
  unfold wordOfBytes byteOf
  ext i hi
  simp only [BitVec.getElem_append, BitVec.getElem_extractLsb']
  split
  · simp; rfl
  · split
    · rw [BitVec.getLsbD_eq_getElem (by omega)]; congr 1; omega
    · split
      · rw [BitVec.getLsbD_eq_getElem (by omega)]; congr 1; omega
      · rw [BitVec.getLsbD_eq_getElem (by omega)]; congr 1; omega

/-- The word just written reads as written. -/
@[simp] theorem loadWord_storeWord_same (m : List Host.Cell) (a : Nat) (v : Word) :
    Memory.loadWord (Memory.storeWord m a v) a = some v := by
  simp [Memory.loadWord, Memory.storeWord, loadByte_storeByte]

/-- A word whose bytes read the same reads the same. -/
theorem loadWord_congr {m m' : List Host.Cell} {a : Nat}
    (h : ∀ c, a ≤ c → c < a + 4 → Memory.loadByte m c = Memory.loadByte m' c) :
    Memory.loadWord m a = Memory.loadWord m' a := by
  unfold Memory.loadWord
  rw [h a (by omega) (by omega), h (a + 1) (by omega) (by omega), h (a + 2) (by omega) (by omega),
    h (a + 3) (by omega) (by omega)]

/-- A word that does not overlap the one written reads as before. -/
theorem loadWord_storeWord_other (m : List Host.Cell) {a c : Nat} (v : Word) (h : c + 4 ≤ a ∨ a + 4 ≤ c) :
    Memory.loadWord (Memory.storeWord m a v) c = Memory.loadWord m c :=
  loadWord_congr fun _ _ _ => loadByte_storeWord_other m v (by omega)

/-! ## The words of a value -/

/-- Writing a value's words keeps the canonical form. -/
theorem storeWords_wf {m : List Host.Cell} (h : Memory.wf m) (base v n : Nat) :
    Memory.wf (Memory.storeWords m base v n) := by
  induction n with
  | zero => exact h
  | succ n ih => exact storeWord_wf ih _ _

/-- The offsets listed after a value is written: those before, and the words written. -/
theorem mem_storeWords {m : List Host.Cell} {base v n : Nat} {c : Host.Cell}
    (h : c ∈ Memory.storeWords m base v n) : c ∈ m ∨ (base ≤ c.1 ∧ c.1 < base + 4 * n) := by
  induction n with
  | zero => exact .inl h
  | succ n ih =>
    rcases mem_storeWord h with h | h
    · exact (ih h).imp_right fun h => by omega
    · exact .inr (by omega)

/-- A byte outside the words written reads as before. -/
theorem loadByte_storeWords_other (m : List Host.Cell) {base c : Nat} (v n : Nat) (h : c < base ∨ base + 4 * n ≤ c) :
    Memory.loadByte (Memory.storeWords m base v n) c = Memory.loadByte m c := by
  induction n with
  | zero => rfl
  | succ n ih =>
    show Memory.loadByte (Memory.storeWord _ _ _) c = _
    rw [loadByte_storeWord_other _ _ (by omega), ih (by omega)]

/-- Word `i` of the value written reads as written. -/
theorem loadWord_storeWords (m : List Host.Cell) (base v : Nat) {n i : Nat} (h : i < n) :
    Memory.loadWord (Memory.storeWords m base v n) (base + 4 * i) = some (wordOf v i) := by
  induction n with
  | zero => omega
  | succ n ih =>
    show Memory.loadWord (Memory.storeWord _ _ _) _ = _
    by_cases hi : i = n
    · subst hi; simp
    · rw [loadWord_storeWord_other _ _ (by omega), ih (by omega)]

/-- A word outside the words written reads as before. -/
theorem loadWord_storeWords_other (m : List Host.Cell) {base c : Nat} (v n : Nat)
    (h : c + 4 ≤ base ∨ base + 4 * n ≤ c) :
    Memory.loadWord (Memory.storeWords m base v n) c = Memory.loadWord m c :=
  loadWord_congr fun _ _ _ => loadByte_storeWords_other m v n (by omega)

/-- A value depends on its words alone. -/
theorem value_congr {m m' : List Host.Cell} {base n : Nat}
    (h : ∀ i, i < n → Memory.loadWord m (base + 4 * i) = Memory.loadWord m' (base + 4 * i)) :
    Memory.value m base n = Memory.value m' base n := by
  induction n with
  | zero => rfl
  | succ n ih =>
    simp only [Memory.value]
    rw [ih fun i hi => h i (by omega), h n (by omega)]

/-- Which words are written depends on the words alone. -/
theorem allWritten_congr {m m' : List Host.Cell} {base n : Nat}
    (h : ∀ i, i < n → Memory.loadWord m (base + 4 * i) = Memory.loadWord m' (base + 4 * i)) :
    Memory.allWritten m base n = Memory.allWritten m' base n := by
  induction n with
  | zero => rfl
  | succ n ih =>
    simp only [Memory.allWritten]
    rw [ih fun i hi => h i (by omega), h n (by omega)]

/-- A value of `n` words is below `2^(32*n)` (R9, R63). -/
theorem value_lt (m : List Host.Cell) (base n : Nat) : Memory.value m base n < 2 ^ (32 * n) := by
  induction n with
  | zero => simp [Memory.value]
  | succ n ih =>
    simp only [Memory.value]
    generalize ((Memory.loadWord m (base + 4 * n)).getD (Config.ramWord (base + 4 * n))) = v
    have hv : v.toNat ≤ 2 ^ 32 - 1 := Nat.le_pred_of_lt v.isLt
    calc Memory.value m base n + v.toNat * 2 ^ (32 * n)
        < 2 ^ (32 * n) + (2 ^ 32 - 1) * 2 ^ (32 * n) := by
          have := Nat.mul_le_mul_right (2 ^ (32 * n)) hv
          omega
      _ = 2 ^ (32 * (n + 1)) := by rw [Nat.mul_succ, Nat.pow_add]; omega

/-- Writing the words of a value and assembling them gives the value back, as far as the words reach (R63, R129). -/
theorem value_storeWords (m : List Host.Cell) (base v n : Nat) :
    Memory.value (Memory.storeWords m base v n) base n = v % 2 ^ (32 * n) := by
  have h : ∀ k, k ≤ n → Memory.value (Memory.storeWords m base v n) base k = v % 2 ^ (32 * k) := by
    intro k
    induction k with
    | zero => intro _; simp [Memory.value, Nat.mod_one]
    | succ k ih =>
      intro hk
      simp only [Memory.value]
      rw [ih (by omega), loadWord_storeWords m base v (by omega)]
      simp only [Option.getD_some, wordOf, BitVec.toNat_ofNat]
      rw [Nat.mul_succ, Nat.pow_add, Nat.mod_mul, Nat.mul_comm (v / 2 ^ (32 * k) % 2 ^ 32)]
  exact h n (Nat.le_refl n)

end Sys2Proof.Machine
end

