-- ==== Sys2Proof/Laws/State.lean ====
section
/-! SUPPORT. Each field of the state after each named update, so that no proof unfolds an update. -/

namespace Sys2Proof.Machine

variable (s : State)

/-! ## setLastUop -/

@[simp] theorem setLastUop_params (u : Word) : (s.setLastUop u).params = s.params := rfl
@[simp] theorem setLastUop_ie (u : Word) : (s.setLastUop u).ie = s.ie := rfl
@[simp] theorem setLastUop_busyWr (u : Word) : (s.setLastUop u).busyWr = s.busyWr := rfl
@[simp] theorem setLastUop_err (u : Word) : (s.setLastUop u).err = s.err := rfl
@[simp] theorem setLastUop_glen (u : Word) : (s.setLastUop u).glen = s.glen := rfl
@[simp] theorem setLastUop_xlen (u : Word) : (s.setLastUop u).xlen = s.xlen := rfl
@[simp] theorem setLastUop_plen (u : Word) : (s.setLastUop u).plen = s.plen := rfl
@[simp] theorem setLastUop_ylen (u : Word) : (s.setLastUop u).ylen = s.ylen := rfl
@[simp] theorem setLastUop_sqrCnt (u : Word) : (s.setLastUop u).sqrCnt = s.sqrCnt := rfl
@[simp] theorem setLastUop_mulCnt (u : Word) : (s.setLastUop u).mulCnt = s.mulCnt := rfl
@[simp] theorem setLastUop_redCnt (u : Word) : (s.setLastUop u).redCnt = s.redCnt := rfl
@[simp] theorem setLastUop_lastUop (u : Word) : (s.setLastUop u).lastUop = u := rfl
@[simp] theorem setLastUop_errUop (u : Word) : (s.setLastUop u).errUop = s.errUop := rfl
@[simp] theorem setLastUop_held (u : Word) : (s.setLastUop u).held = s.held := rfl
@[simp] theorem setLastUop_slots (u : Word) : (s.setLastUop u).slots = s.slots := rfl
@[simp] theorem setLastUop_res (u : Word) : (s.setLastUop u).res = s.res := rfl
@[simp] theorem setLastUop_ctx (u : Word) : (s.setLastUop u).ctx = s.ctx := rfl
@[simp] theorem setLastUop_seq (u : Word) : (s.setLastUop u).seq = s.seq := rfl
@[simp] theorem setLastUop_w (u : Word) : (s.setLastUop u).w = s.w := rfl
@[simp] theorem setLastUop_prog (u : Word) : (s.setLastUop u).prog = s.prog := rfl
@[simp] theorem setLastUop_scan (u : Word) : (s.setLastUop u).scan = s.scan := rfl
@[simp] theorem setLastUop_mem (u : Word) : (s.setLastUop u).mem = s.mem := rfl
@[simp] theorem setLastUop_rdata (u : Word) : (s.setLastUop u).rdata = s.rdata := rfl
@[simp] theorem setLastUop_turns (u : Word) : (s.setLastUop u).turns = s.turns := rfl
@[simp] theorem setLastUop_kernel (u : Word) : (s.setLastUop u).kernel = s.kernel := rfl
@[simp] theorem setLastUop_draws (u : Word) : (s.setLastUop u).draws = s.draws := rfl

/-! ## putReg -/

@[simp] theorem putReg_params (r : Reg) (v : Option Nat) : (s.putReg r v).params = s.params := by cases r <;> rfl
@[simp] theorem putReg_ie (r : Reg) (v : Option Nat) : (s.putReg r v).ie = s.ie := by cases r <;> rfl
@[simp] theorem putReg_busyWr (r : Reg) (v : Option Nat) : (s.putReg r v).busyWr = s.busyWr := by cases r <;> rfl
@[simp] theorem putReg_err (r : Reg) (v : Option Nat) : (s.putReg r v).err = s.err := by cases r <;> rfl
@[simp] theorem putReg_glen (r : Reg) (v : Option Nat) : (s.putReg r v).glen = s.glen := by cases r <;> rfl
@[simp] theorem putReg_xlen (r : Reg) (v : Option Nat) : (s.putReg r v).xlen = s.xlen := by cases r <;> rfl
@[simp] theorem putReg_plen (r : Reg) (v : Option Nat) : (s.putReg r v).plen = s.plen := by cases r <;> rfl
@[simp] theorem putReg_ylen (r : Reg) (v : Option Nat) : (s.putReg r v).ylen = s.ylen := by cases r <;> rfl
@[simp] theorem putReg_sqrCnt (r : Reg) (v : Option Nat) : (s.putReg r v).sqrCnt = s.sqrCnt := by cases r <;> rfl
@[simp] theorem putReg_mulCnt (r : Reg) (v : Option Nat) : (s.putReg r v).mulCnt = s.mulCnt := by cases r <;> rfl
@[simp] theorem putReg_redCnt (r : Reg) (v : Option Nat) : (s.putReg r v).redCnt = s.redCnt := by cases r <;> rfl
@[simp] theorem putReg_lastUop (r : Reg) (v : Option Nat) : (s.putReg r v).lastUop = s.lastUop := by cases r <;> rfl
@[simp] theorem putReg_errUop (r : Reg) (v : Option Nat) : (s.putReg r v).errUop = s.errUop := by cases r <;> rfl
@[simp] theorem putReg_held (r : Reg) (v : Option Nat) : (s.putReg r v).held = s.held := by cases r <;> rfl
@[simp] theorem putReg_seq (r : Reg) (v : Option Nat) : (s.putReg r v).seq = s.seq := by cases r <;> rfl
@[simp] theorem putReg_w (r : Reg) (v : Option Nat) : (s.putReg r v).w = s.w := by cases r <;> rfl
@[simp] theorem putReg_prog (r : Reg) (v : Option Nat) : (s.putReg r v).prog = s.prog := by cases r <;> rfl
@[simp] theorem putReg_scan (r : Reg) (v : Option Nat) : (s.putReg r v).scan = s.scan := by cases r <;> rfl
@[simp] theorem putReg_mem (r : Reg) (v : Option Nat) : (s.putReg r v).mem = s.mem := by cases r <;> rfl
@[simp] theorem putReg_rdata (r : Reg) (v : Option Nat) : (s.putReg r v).rdata = s.rdata := by cases r <;> rfl
@[simp] theorem putReg_turns (r : Reg) (v : Option Nat) : (s.putReg r v).turns = s.turns := by cases r <;> rfl
@[simp] theorem putReg_kernel (r : Reg) (v : Option Nat) : (s.putReg r v).kernel = s.kernel := by cases r <;> rfl
@[simp] theorem putReg_draws (r : Reg) (v : Option Nat) : (s.putReg r v).draws = s.draws := by cases r <;> rfl

/-! ## writeReg -/

@[simp] theorem writeReg_params (r : Reg) (v : Nat) : (s.writeReg r v).params = s.params := by cases r <;> rfl
@[simp] theorem writeReg_ie (r : Reg) (v : Nat) : (s.writeReg r v).ie = s.ie := by cases r <;> rfl
@[simp] theorem writeReg_busyWr (r : Reg) (v : Nat) : (s.writeReg r v).busyWr = s.busyWr := by cases r <;> rfl
@[simp] theorem writeReg_err (r : Reg) (v : Nat) : (s.writeReg r v).err = s.err := by cases r <;> rfl
@[simp] theorem writeReg_glen (r : Reg) (v : Nat) : (s.writeReg r v).glen = s.glen := by cases r <;> rfl
@[simp] theorem writeReg_xlen (r : Reg) (v : Nat) : (s.writeReg r v).xlen = s.xlen := by cases r <;> rfl
@[simp] theorem writeReg_plen (r : Reg) (v : Nat) : (s.writeReg r v).plen = s.plen := by cases r <;> rfl
@[simp] theorem writeReg_ylen (r : Reg) (v : Nat) : (s.writeReg r v).ylen = s.ylen := by cases r <;> rfl
@[simp] theorem writeReg_sqrCnt (r : Reg) (v : Nat) : (s.writeReg r v).sqrCnt = s.sqrCnt := by cases r <;> rfl
@[simp] theorem writeReg_mulCnt (r : Reg) (v : Nat) : (s.writeReg r v).mulCnt = s.mulCnt := by cases r <;> rfl
@[simp] theorem writeReg_redCnt (r : Reg) (v : Nat) : (s.writeReg r v).redCnt = s.redCnt := by cases r <;> rfl
@[simp] theorem writeReg_lastUop (r : Reg) (v : Nat) : (s.writeReg r v).lastUop = s.lastUop := by cases r <;> rfl
@[simp] theorem writeReg_errUop (r : Reg) (v : Nat) : (s.writeReg r v).errUop = s.errUop := by cases r <;> rfl
@[simp] theorem writeReg_held (r : Reg) (v : Nat) : (s.writeReg r v).held = s.held := by cases r <;> rfl
@[simp] theorem writeReg_seq (r : Reg) (v : Nat) : (s.writeReg r v).seq = s.seq := by cases r <;> rfl
@[simp] theorem writeReg_w (r : Reg) (v : Nat) : (s.writeReg r v).w = s.w := by cases r <;> rfl
@[simp] theorem writeReg_prog (r : Reg) (v : Nat) : (s.writeReg r v).prog = s.prog := by cases r <;> rfl
@[simp] theorem writeReg_scan (r : Reg) (v : Nat) : (s.writeReg r v).scan = s.scan := by cases r <;> rfl
@[simp] theorem writeReg_mem (r : Reg) (v : Nat) : (s.writeReg r v).mem = s.mem := by cases r <;> rfl
@[simp] theorem writeReg_rdata (r : Reg) (v : Nat) : (s.writeReg r v).rdata = s.rdata := by cases r <;> rfl
@[simp] theorem writeReg_turns (r : Reg) (v : Nat) : (s.writeReg r v).turns = s.turns := by cases r <;> rfl
@[simp] theorem writeReg_kernel (r : Reg) (v : Nat) : (s.writeReg r v).kernel = s.kernel := by cases r <;> rfl
@[simp] theorem writeReg_draws (r : Reg) (v : Nat) : (s.writeReg r v).draws = s.draws := by cases r <;> rfl

/-! ## depopulate -/

@[simp] theorem depopulate_params (r : Reg) : (s.depopulate r).params = s.params := by cases r <;> rfl
@[simp] theorem depopulate_ie (r : Reg) : (s.depopulate r).ie = s.ie := by cases r <;> rfl
@[simp] theorem depopulate_busyWr (r : Reg) : (s.depopulate r).busyWr = s.busyWr := by cases r <;> rfl
@[simp] theorem depopulate_err (r : Reg) : (s.depopulate r).err = s.err := by cases r <;> rfl
@[simp] theorem depopulate_glen (r : Reg) : (s.depopulate r).glen = s.glen := by cases r <;> rfl
@[simp] theorem depopulate_xlen (r : Reg) : (s.depopulate r).xlen = s.xlen := by cases r <;> rfl
@[simp] theorem depopulate_plen (r : Reg) : (s.depopulate r).plen = s.plen := by cases r <;> rfl
@[simp] theorem depopulate_ylen (r : Reg) : (s.depopulate r).ylen = s.ylen := by cases r <;> rfl
@[simp] theorem depopulate_sqrCnt (r : Reg) : (s.depopulate r).sqrCnt = s.sqrCnt := by cases r <;> rfl
@[simp] theorem depopulate_mulCnt (r : Reg) : (s.depopulate r).mulCnt = s.mulCnt := by cases r <;> rfl
@[simp] theorem depopulate_redCnt (r : Reg) : (s.depopulate r).redCnt = s.redCnt := by cases r <;> rfl
@[simp] theorem depopulate_lastUop (r : Reg) : (s.depopulate r).lastUop = s.lastUop := by cases r <;> rfl
@[simp] theorem depopulate_errUop (r : Reg) : (s.depopulate r).errUop = s.errUop := by cases r <;> rfl
@[simp] theorem depopulate_held (r : Reg) : (s.depopulate r).held = s.held := by cases r <;> rfl
@[simp] theorem depopulate_seq (r : Reg) : (s.depopulate r).seq = s.seq := by cases r <;> rfl
@[simp] theorem depopulate_w (r : Reg) : (s.depopulate r).w = s.w := by cases r <;> rfl
@[simp] theorem depopulate_prog (r : Reg) : (s.depopulate r).prog = s.prog := by cases r <;> rfl
@[simp] theorem depopulate_scan (r : Reg) : (s.depopulate r).scan = s.scan := by cases r <;> rfl
@[simp] theorem depopulate_mem (r : Reg) : (s.depopulate r).mem = s.mem := by cases r <;> rfl
@[simp] theorem depopulate_rdata (r : Reg) : (s.depopulate r).rdata = s.rdata := by cases r <;> rfl
@[simp] theorem depopulate_turns (r : Reg) : (s.depopulate r).turns = s.turns := by cases r <;> rfl
@[simp] theorem depopulate_kernel (r : Reg) : (s.depopulate r).kernel = s.kernel := by cases r <;> rfl
@[simp] theorem depopulate_draws (r : Reg) : (s.depopulate r).draws = s.draws := by cases r <;> rfl

/-! ## acquire -/

@[simp] theorem acquire_params (r : Reg) : (s.acquire r).params = s.params := by cases r <;> rfl
@[simp] theorem acquire_ie (r : Reg) : (s.acquire r).ie = s.ie := by cases r <;> rfl
@[simp] theorem acquire_busyWr (r : Reg) : (s.acquire r).busyWr = s.busyWr := by cases r <;> rfl
@[simp] theorem acquire_err (r : Reg) : (s.acquire r).err = s.err := by cases r <;> rfl
@[simp] theorem acquire_glen (r : Reg) : (s.acquire r).glen = s.glen := by cases r <;> rfl
@[simp] theorem acquire_xlen (r : Reg) : (s.acquire r).xlen = s.xlen := by cases r <;> rfl
@[simp] theorem acquire_plen (r : Reg) : (s.acquire r).plen = s.plen := by cases r <;> rfl
@[simp] theorem acquire_ylen (r : Reg) : (s.acquire r).ylen = s.ylen := by cases r <;> rfl
@[simp] theorem acquire_sqrCnt (r : Reg) : (s.acquire r).sqrCnt = s.sqrCnt := by cases r <;> rfl
@[simp] theorem acquire_mulCnt (r : Reg) : (s.acquire r).mulCnt = s.mulCnt := by cases r <;> rfl
@[simp] theorem acquire_redCnt (r : Reg) : (s.acquire r).redCnt = s.redCnt := by cases r <;> rfl
@[simp] theorem acquire_lastUop (r : Reg) : (s.acquire r).lastUop = s.lastUop := by cases r <;> rfl
@[simp] theorem acquire_errUop (r : Reg) : (s.acquire r).errUop = s.errUop := by cases r <;> rfl
@[simp] theorem acquire_held (r : Reg) : (s.acquire r).held = s.held ++ [r] := by cases r <;> rfl
@[simp] theorem acquire_seq (r : Reg) : (s.acquire r).seq = s.seq := by cases r <;> rfl
@[simp] theorem acquire_w (r : Reg) : (s.acquire r).w = s.w := by cases r <;> rfl
@[simp] theorem acquire_prog (r : Reg) : (s.acquire r).prog = s.prog := by cases r <;> rfl
@[simp] theorem acquire_scan (r : Reg) : (s.acquire r).scan = s.scan := by cases r <;> rfl
@[simp] theorem acquire_mem (r : Reg) : (s.acquire r).mem = s.mem := by cases r <;> rfl
@[simp] theorem acquire_rdata (r : Reg) : (s.acquire r).rdata = s.rdata := by cases r <;> rfl
@[simp] theorem acquire_turns (r : Reg) : (s.acquire r).turns = s.turns := by cases r <;> rfl
@[simp] theorem acquire_kernel (r : Reg) : (s.acquire r).kernel = s.kernel := by cases r <;> rfl
@[simp] theorem acquire_draws (r : Reg) : (s.acquire r).draws = s.draws := by cases r <;> rfl

/-! ## releaseAll -/

@[simp] theorem releaseAll_params : (s.releaseAll).params = s.params := rfl
@[simp] theorem releaseAll_ie : (s.releaseAll).ie = s.ie := rfl
@[simp] theorem releaseAll_busyWr : (s.releaseAll).busyWr = s.busyWr := rfl
@[simp] theorem releaseAll_err : (s.releaseAll).err = s.err := rfl
@[simp] theorem releaseAll_glen : (s.releaseAll).glen = s.glen := rfl
@[simp] theorem releaseAll_xlen : (s.releaseAll).xlen = s.xlen := rfl
@[simp] theorem releaseAll_plen : (s.releaseAll).plen = s.plen := rfl
@[simp] theorem releaseAll_ylen : (s.releaseAll).ylen = s.ylen := rfl
@[simp] theorem releaseAll_sqrCnt : (s.releaseAll).sqrCnt = s.sqrCnt := rfl
@[simp] theorem releaseAll_mulCnt : (s.releaseAll).mulCnt = s.mulCnt := rfl
@[simp] theorem releaseAll_redCnt : (s.releaseAll).redCnt = s.redCnt := rfl
@[simp] theorem releaseAll_lastUop : (s.releaseAll).lastUop = s.lastUop := rfl
@[simp] theorem releaseAll_errUop : (s.releaseAll).errUop = s.errUop := rfl
@[simp] theorem releaseAll_held : (s.releaseAll).held = [] := rfl
@[simp] theorem releaseAll_slots : (s.releaseAll).slots = Vector.replicate 256 none := rfl
@[simp] theorem releaseAll_res : (s.releaseAll).res = none := rfl
@[simp] theorem releaseAll_ctx : (s.releaseAll).ctx = none := rfl
@[simp] theorem releaseAll_seq : (s.releaseAll).seq = s.seq := rfl
@[simp] theorem releaseAll_w : (s.releaseAll).w = s.w := rfl
@[simp] theorem releaseAll_prog : (s.releaseAll).prog = s.prog := rfl
@[simp] theorem releaseAll_scan : (s.releaseAll).scan = s.scan := rfl
@[simp] theorem releaseAll_mem : (s.releaseAll).mem = s.mem := rfl
@[simp] theorem releaseAll_rdata : (s.releaseAll).rdata = s.rdata := rfl
@[simp] theorem releaseAll_turns : (s.releaseAll).turns = s.turns := rfl
@[simp] theorem releaseAll_kernel : (s.releaseAll).kernel = s.kernel := rfl
@[simp] theorem releaseAll_draws : (s.releaseAll).draws = s.draws := rfl

/-! ## takeAnswer -/

@[simp] theorem takeAnswer_params : (s.takeAnswer).params = s.params := by unfold State.takeAnswer; split <;> rfl
@[simp] theorem takeAnswer_ie : (s.takeAnswer).ie = s.ie := by unfold State.takeAnswer; split <;> rfl
@[simp] theorem takeAnswer_busyWr : (s.takeAnswer).busyWr = s.busyWr := by unfold State.takeAnswer; split <;> rfl
@[simp] theorem takeAnswer_err : (s.takeAnswer).err = s.err := by unfold State.takeAnswer; split <;> rfl
@[simp] theorem takeAnswer_glen : (s.takeAnswer).glen = s.glen := by unfold State.takeAnswer; split <;> rfl
@[simp] theorem takeAnswer_xlen : (s.takeAnswer).xlen = s.xlen := by unfold State.takeAnswer; split <;> rfl
@[simp] theorem takeAnswer_plen : (s.takeAnswer).plen = s.plen := by unfold State.takeAnswer; split <;> rfl
@[simp] theorem takeAnswer_ylen : (s.takeAnswer).ylen = s.ylen := by unfold State.takeAnswer; split <;> rfl
@[simp] theorem takeAnswer_sqrCnt : (s.takeAnswer).sqrCnt = s.sqrCnt := by unfold State.takeAnswer; split <;> rfl
@[simp] theorem takeAnswer_mulCnt : (s.takeAnswer).mulCnt = s.mulCnt := by unfold State.takeAnswer; split <;> rfl
@[simp] theorem takeAnswer_redCnt : (s.takeAnswer).redCnt = s.redCnt := by unfold State.takeAnswer; split <;> rfl
@[simp] theorem takeAnswer_lastUop : (s.takeAnswer).lastUop = s.lastUop := by unfold State.takeAnswer; split <;> rfl
@[simp] theorem takeAnswer_errUop : (s.takeAnswer).errUop = s.errUop := by unfold State.takeAnswer; split <;> rfl
@[simp] theorem takeAnswer_held : (s.takeAnswer).held = s.held := by unfold State.takeAnswer; split <;> rfl
@[simp] theorem takeAnswer_slots : (s.takeAnswer).slots = s.slots := by unfold State.takeAnswer; split <;> rfl
@[simp] theorem takeAnswer_res : (s.takeAnswer).res = s.res := by unfold State.takeAnswer; split <;> rfl
@[simp] theorem takeAnswer_ctx : (s.takeAnswer).ctx = s.ctx := by unfold State.takeAnswer; split <;> rfl
@[simp] theorem takeAnswer_seq : (s.takeAnswer).seq = s.seq := by unfold State.takeAnswer; split <;> rfl
@[simp] theorem takeAnswer_w : (s.takeAnswer).w = s.w := by unfold State.takeAnswer; split <;> rfl
@[simp] theorem takeAnswer_prog : (s.takeAnswer).prog = s.prog := by unfold State.takeAnswer; split <;> rfl
@[simp] theorem takeAnswer_scan : (s.takeAnswer).scan = s.scan := by unfold State.takeAnswer; split <;> rfl
@[simp] theorem takeAnswer_mem : (s.takeAnswer).mem = s.mem := by unfold State.takeAnswer; split <;> rfl
@[simp] theorem takeAnswer_rdata : (s.takeAnswer).rdata = s.rdata := by unfold State.takeAnswer; split <;> rfl
@[simp] theorem takeAnswer_turns : (s.takeAnswer).turns = s.turns := by unfold State.takeAnswer; split <;> rfl
@[simp] theorem takeAnswer_kernel : (s.takeAnswer).kernel = s.kernel.tail := by unfold State.takeAnswer; split <;> simp_all
@[simp] theorem takeAnswer_draws : (s.takeAnswer).draws = if s.kernel = [] then s.draws + 1 else s.draws := by unfold State.takeAnswer; split <;> simp_all

/-! ## enterFailure -/

@[simp] theorem enterFailure_params (k : FailKind) (u : Word) (d : Option Reg) : (s.enterFailure k u d).params = s.params := by rcases d with _ | (_ | _ | _) <;> rfl
@[simp] theorem enterFailure_ie (k : FailKind) (u : Word) (d : Option Reg) : (s.enterFailure k u d).ie = s.ie := by rcases d with _ | (_ | _ | _) <;> rfl
@[simp] theorem enterFailure_busyWr (k : FailKind) (u : Word) (d : Option Reg) : (s.enterFailure k u d).busyWr = s.busyWr := by rcases d with _ | (_ | _ | _) <;> rfl
@[simp] theorem enterFailure_err (k : FailKind) (u : Word) (d : Option Reg) : (s.enterFailure k u d).err = some k := by rcases d with _ | (_ | _ | _) <;> rfl
@[simp] theorem enterFailure_glen (k : FailKind) (u : Word) (d : Option Reg) : (s.enterFailure k u d).glen = s.glen := by rcases d with _ | (_ | _ | _) <;> rfl
@[simp] theorem enterFailure_xlen (k : FailKind) (u : Word) (d : Option Reg) : (s.enterFailure k u d).xlen = s.xlen := by rcases d with _ | (_ | _ | _) <;> rfl
@[simp] theorem enterFailure_plen (k : FailKind) (u : Word) (d : Option Reg) : (s.enterFailure k u d).plen = s.plen := by rcases d with _ | (_ | _ | _) <;> rfl
@[simp] theorem enterFailure_ylen (k : FailKind) (u : Word) (d : Option Reg) : (s.enterFailure k u d).ylen = s.ylen := by rcases d with _ | (_ | _ | _) <;> rfl
@[simp] theorem enterFailure_sqrCnt (k : FailKind) (u : Word) (d : Option Reg) : (s.enterFailure k u d).sqrCnt = s.sqrCnt := by rcases d with _ | (_ | _ | _) <;> rfl
@[simp] theorem enterFailure_mulCnt (k : FailKind) (u : Word) (d : Option Reg) : (s.enterFailure k u d).mulCnt = s.mulCnt := by rcases d with _ | (_ | _ | _) <;> rfl
@[simp] theorem enterFailure_redCnt (k : FailKind) (u : Word) (d : Option Reg) : (s.enterFailure k u d).redCnt = s.redCnt := by rcases d with _ | (_ | _ | _) <;> rfl
@[simp] theorem enterFailure_lastUop (k : FailKind) (u : Word) (d : Option Reg) : (s.enterFailure k u d).lastUop = s.lastUop := by rcases d with _ | (_ | _ | _) <;> rfl
@[simp] theorem enterFailure_errUop (k : FailKind) (u : Word) (d : Option Reg) : (s.enterFailure k u d).errUop = u := by rcases d with _ | (_ | _ | _) <;> rfl
@[simp] theorem enterFailure_held (k : FailKind) (u : Word) (d : Option Reg) : (s.enterFailure k u d).held = s.held := by rcases d with _ | (_ | _ | _) <;> rfl
@[simp] theorem enterFailure_seq (k : FailKind) (u : Word) (d : Option Reg) : (s.enterFailure k u d).seq = .cleanup := by rcases d with _ | (_ | _ | _) <;> rfl
@[simp] theorem enterFailure_w (k : FailKind) (u : Word) (d : Option Reg) : (s.enterFailure k u d).w = s.w := by rcases d with _ | (_ | _ | _) <;> rfl
@[simp] theorem enterFailure_prog (k : FailKind) (u : Word) (d : Option Reg) : (s.enterFailure k u d).prog = s.prog := by rcases d with _ | (_ | _ | _) <;> rfl
@[simp] theorem enterFailure_scan (k : FailKind) (u : Word) (d : Option Reg) : (s.enterFailure k u d).scan = s.scan := by rcases d with _ | (_ | _ | _) <;> rfl
@[simp] theorem enterFailure_mem (k : FailKind) (u : Word) (d : Option Reg) : (s.enterFailure k u d).mem = s.mem := by rcases d with _ | (_ | _ | _) <;> rfl
@[simp] theorem enterFailure_rdata (k : FailKind) (u : Word) (d : Option Reg) : (s.enterFailure k u d).rdata = s.rdata := by rcases d with _ | (_ | _ | _) <;> rfl
@[simp] theorem enterFailure_turns (k : FailKind) (u : Word) (d : Option Reg) : (s.enterFailure k u d).turns = s.turns := by rcases d with _ | (_ | _ | _) <;> rfl
@[simp] theorem enterFailure_kernel (k : FailKind) (u : Word) (d : Option Reg) : (s.enterFailure k u d).kernel = s.kernel := by rcases d with _ | (_ | _ | _) <;> rfl
@[simp] theorem enterFailure_draws (k : FailKind) (u : Word) (d : Option Reg) : (s.enterFailure k u d).draws = s.draws := by rcases d with _ | (_ | _ | _) <;> rfl

/-! ## advance -/

@[simp] theorem advance_params : (s.advance).params = s.params := rfl
@[simp] theorem advance_ie : (s.advance).ie = s.ie := rfl
@[simp] theorem advance_busyWr : (s.advance).busyWr = s.busyWr := rfl
@[simp] theorem advance_err : (s.advance).err = s.err := rfl
@[simp] theorem advance_glen : (s.advance).glen = s.glen := rfl
@[simp] theorem advance_xlen : (s.advance).xlen = s.xlen := rfl
@[simp] theorem advance_plen : (s.advance).plen = s.plen := rfl
@[simp] theorem advance_ylen : (s.advance).ylen = s.ylen := rfl
@[simp] theorem advance_sqrCnt : (s.advance).sqrCnt = s.sqrCnt := rfl
@[simp] theorem advance_mulCnt : (s.advance).mulCnt = s.mulCnt := rfl
@[simp] theorem advance_redCnt : (s.advance).redCnt = s.redCnt := rfl
@[simp] theorem advance_lastUop : (s.advance).lastUop = s.lastUop := rfl
@[simp] theorem advance_errUop : (s.advance).errUop = s.errUop := rfl
@[simp] theorem advance_held : (s.advance).held = s.held := rfl
@[simp] theorem advance_slots : (s.advance).slots = s.slots := rfl
@[simp] theorem advance_res : (s.advance).res = s.res := rfl
@[simp] theorem advance_ctx : (s.advance).ctx = s.ctx := rfl
@[simp] theorem advance_seq : (s.advance).seq = s.nextSeq := rfl
@[simp] theorem advance_w : (s.advance).w = s.w := rfl
@[simp] theorem advance_prog : (s.advance).prog = s.prog := rfl
@[simp] theorem advance_scan : (s.advance).scan = s.scan := rfl
@[simp] theorem advance_mem : (s.advance).mem = s.mem := rfl
@[simp] theorem advance_rdata : (s.advance).rdata = s.rdata := rfl
@[simp] theorem advance_turns : (s.advance).turns = s.turns := rfl
@[simp] theorem advance_kernel : (s.advance).kernel = s.kernel := rfl
@[simp] theorem advance_draws : (s.advance).draws = s.draws := rfl

/-! ## acknowledge -/

@[simp] theorem acknowledge_params : (s.acknowledge).params = s.params := rfl
@[simp] theorem acknowledge_ie : (s.acknowledge).ie = s.ie := rfl
@[simp] theorem acknowledge_busyWr : (s.acknowledge).busyWr = false := rfl
@[simp] theorem acknowledge_err : (s.acknowledge).err = none := rfl
@[simp] theorem acknowledge_glen : (s.acknowledge).glen = s.glen := rfl
@[simp] theorem acknowledge_xlen : (s.acknowledge).xlen = s.xlen := rfl
@[simp] theorem acknowledge_plen : (s.acknowledge).plen = s.plen := rfl
@[simp] theorem acknowledge_ylen : (s.acknowledge).ylen = s.ylen := rfl
@[simp] theorem acknowledge_sqrCnt : (s.acknowledge).sqrCnt = s.sqrCnt := rfl
@[simp] theorem acknowledge_mulCnt : (s.acknowledge).mulCnt = s.mulCnt := rfl
@[simp] theorem acknowledge_redCnt : (s.acknowledge).redCnt = s.redCnt := rfl
@[simp] theorem acknowledge_lastUop : (s.acknowledge).lastUop = s.lastUop := rfl
@[simp] theorem acknowledge_errUop : (s.acknowledge).errUop = 0#32 := rfl
@[simp] theorem acknowledge_held : (s.acknowledge).held = s.held := rfl
@[simp] theorem acknowledge_slots : (s.acknowledge).slots = s.slots := rfl
@[simp] theorem acknowledge_res : (s.acknowledge).res = s.res := rfl
@[simp] theorem acknowledge_ctx : (s.acknowledge).ctx = s.ctx := rfl
@[simp] theorem acknowledge_seq : (s.acknowledge).seq = .idle := rfl
@[simp] theorem acknowledge_w : (s.acknowledge).w = s.w := rfl
@[simp] theorem acknowledge_prog : (s.acknowledge).prog = s.prog := rfl
@[simp] theorem acknowledge_scan : (s.acknowledge).scan = s.scan := rfl
@[simp] theorem acknowledge_mem : (s.acknowledge).mem = s.mem := rfl
@[simp] theorem acknowledge_rdata : (s.acknowledge).rdata = s.rdata := rfl
@[simp] theorem acknowledge_turns : (s.acknowledge).turns = s.turns := rfl
@[simp] theorem acknowledge_kernel : (s.acknowledge).kernel = s.kernel := rfl
@[simp] theorem acknowledge_draws : (s.acknowledge).draws = s.draws := rfl

/-! ## onReset -/

@[simp] theorem onReset_params : (s.onReset).params = s.params := rfl
@[simp] theorem onReset_ie : (s.onReset).ie = false := rfl
@[simp] theorem onReset_busyWr : (s.onReset).busyWr = false := rfl
@[simp] theorem onReset_err : (s.onReset).err = none := rfl
@[simp] theorem onReset_glen : (s.onReset).glen = 0#32 := rfl
@[simp] theorem onReset_xlen : (s.onReset).xlen = 0#32 := rfl
@[simp] theorem onReset_plen : (s.onReset).plen = 0#32 := rfl
@[simp] theorem onReset_ylen : (s.onReset).ylen = 0#32 := rfl
@[simp] theorem onReset_sqrCnt : (s.onReset).sqrCnt = 0#32 := rfl
@[simp] theorem onReset_mulCnt : (s.onReset).mulCnt = 0#32 := rfl
@[simp] theorem onReset_redCnt : (s.onReset).redCnt = 0#32 := rfl
@[simp] theorem onReset_lastUop : (s.onReset).lastUop = 0#32 := rfl
@[simp] theorem onReset_errUop : (s.onReset).errUop = 0#32 := rfl
@[simp] theorem onReset_held : (s.onReset).held = [] := rfl
@[simp] theorem onReset_slots : (s.onReset).slots = Vector.replicate 256 none := rfl
@[simp] theorem onReset_res : (s.onReset).res = none := rfl
@[simp] theorem onReset_ctx : (s.onReset).ctx = none := rfl
@[simp] theorem onReset_seq : (s.onReset).seq = .idle := rfl
@[simp] theorem onReset_w : (s.onReset).w = 0 := rfl
@[simp] theorem onReset_prog : (s.onReset).prog = [] := rfl
@[simp] theorem onReset_scan : (s.onReset).scan = ScanState.initial := rfl
@[simp] theorem onReset_mem : (s.onReset).mem = [] := rfl
@[simp] theorem onReset_rdata : (s.onReset).rdata = s.rdata := rfl
@[simp] theorem onReset_turns : (s.onReset).turns = s.turns := rfl
@[simp] theorem onReset_kernel : (s.onReset).kernel = s.kernel := rfl
@[simp] theorem onReset_draws : (s.onReset).draws = s.draws := rfl

/-! ## countSqr -/

@[simp] theorem countSqr_params : (s.countSqr).params = s.params := rfl
@[simp] theorem countSqr_ie : (s.countSqr).ie = s.ie := rfl
@[simp] theorem countSqr_busyWr : (s.countSqr).busyWr = s.busyWr := rfl
@[simp] theorem countSqr_err : (s.countSqr).err = s.err := rfl
@[simp] theorem countSqr_glen : (s.countSqr).glen = s.glen := rfl
@[simp] theorem countSqr_xlen : (s.countSqr).xlen = s.xlen := rfl
@[simp] theorem countSqr_plen : (s.countSqr).plen = s.plen := rfl
@[simp] theorem countSqr_ylen : (s.countSqr).ylen = s.ylen := rfl
@[simp] theorem countSqr_sqrCnt : (s.countSqr).sqrCnt = s.sqrCnt + 1#32 := rfl
@[simp] theorem countSqr_mulCnt : (s.countSqr).mulCnt = s.mulCnt := rfl
@[simp] theorem countSqr_redCnt : (s.countSqr).redCnt = s.redCnt := rfl
@[simp] theorem countSqr_lastUop : (s.countSqr).lastUop = s.lastUop := rfl
@[simp] theorem countSqr_errUop : (s.countSqr).errUop = s.errUop := rfl
@[simp] theorem countSqr_held : (s.countSqr).held = s.held := rfl
@[simp] theorem countSqr_slots : (s.countSqr).slots = s.slots := rfl
@[simp] theorem countSqr_res : (s.countSqr).res = s.res := rfl
@[simp] theorem countSqr_ctx : (s.countSqr).ctx = s.ctx := rfl
@[simp] theorem countSqr_seq : (s.countSqr).seq = s.seq := rfl
@[simp] theorem countSqr_w : (s.countSqr).w = s.w := rfl
@[simp] theorem countSqr_prog : (s.countSqr).prog = s.prog := rfl
@[simp] theorem countSqr_scan : (s.countSqr).scan = s.scan := rfl
@[simp] theorem countSqr_mem : (s.countSqr).mem = s.mem := rfl
@[simp] theorem countSqr_rdata : (s.countSqr).rdata = s.rdata := rfl
@[simp] theorem countSqr_turns : (s.countSqr).turns = s.turns := rfl
@[simp] theorem countSqr_kernel : (s.countSqr).kernel = s.kernel := rfl
@[simp] theorem countSqr_draws : (s.countSqr).draws = s.draws := rfl

/-! ## countMul -/

@[simp] theorem countMul_params : (s.countMul).params = s.params := rfl
@[simp] theorem countMul_ie : (s.countMul).ie = s.ie := rfl
@[simp] theorem countMul_busyWr : (s.countMul).busyWr = s.busyWr := rfl
@[simp] theorem countMul_err : (s.countMul).err = s.err := rfl
@[simp] theorem countMul_glen : (s.countMul).glen = s.glen := rfl
@[simp] theorem countMul_xlen : (s.countMul).xlen = s.xlen := rfl
@[simp] theorem countMul_plen : (s.countMul).plen = s.plen := rfl
@[simp] theorem countMul_ylen : (s.countMul).ylen = s.ylen := rfl
@[simp] theorem countMul_sqrCnt : (s.countMul).sqrCnt = s.sqrCnt := rfl
@[simp] theorem countMul_mulCnt : (s.countMul).mulCnt = s.mulCnt + 1#32 := rfl
@[simp] theorem countMul_redCnt : (s.countMul).redCnt = s.redCnt := rfl
@[simp] theorem countMul_lastUop : (s.countMul).lastUop = s.lastUop := rfl
@[simp] theorem countMul_errUop : (s.countMul).errUop = s.errUop := rfl
@[simp] theorem countMul_held : (s.countMul).held = s.held := rfl
@[simp] theorem countMul_slots : (s.countMul).slots = s.slots := rfl
@[simp] theorem countMul_res : (s.countMul).res = s.res := rfl
@[simp] theorem countMul_ctx : (s.countMul).ctx = s.ctx := rfl
@[simp] theorem countMul_seq : (s.countMul).seq = s.seq := rfl
@[simp] theorem countMul_w : (s.countMul).w = s.w := rfl
@[simp] theorem countMul_prog : (s.countMul).prog = s.prog := rfl
@[simp] theorem countMul_scan : (s.countMul).scan = s.scan := rfl
@[simp] theorem countMul_mem : (s.countMul).mem = s.mem := rfl
@[simp] theorem countMul_rdata : (s.countMul).rdata = s.rdata := rfl
@[simp] theorem countMul_turns : (s.countMul).turns = s.turns := rfl
@[simp] theorem countMul_kernel : (s.countMul).kernel = s.kernel := rfl
@[simp] theorem countMul_draws : (s.countMul).draws = s.draws := rfl

/-! ## countRed -/

@[simp] theorem countRed_params : (s.countRed).params = s.params := rfl
@[simp] theorem countRed_ie : (s.countRed).ie = s.ie := rfl
@[simp] theorem countRed_busyWr : (s.countRed).busyWr = s.busyWr := rfl
@[simp] theorem countRed_err : (s.countRed).err = s.err := rfl
@[simp] theorem countRed_glen : (s.countRed).glen = s.glen := rfl
@[simp] theorem countRed_xlen : (s.countRed).xlen = s.xlen := rfl
@[simp] theorem countRed_plen : (s.countRed).plen = s.plen := rfl
@[simp] theorem countRed_ylen : (s.countRed).ylen = s.ylen := rfl
@[simp] theorem countRed_sqrCnt : (s.countRed).sqrCnt = s.sqrCnt := rfl
@[simp] theorem countRed_mulCnt : (s.countRed).mulCnt = s.mulCnt := rfl
@[simp] theorem countRed_redCnt : (s.countRed).redCnt = s.redCnt + 1#32 := rfl
@[simp] theorem countRed_lastUop : (s.countRed).lastUop = s.lastUop := rfl
@[simp] theorem countRed_errUop : (s.countRed).errUop = s.errUop := rfl
@[simp] theorem countRed_held : (s.countRed).held = s.held := rfl
@[simp] theorem countRed_slots : (s.countRed).slots = s.slots := rfl
@[simp] theorem countRed_res : (s.countRed).res = s.res := rfl
@[simp] theorem countRed_ctx : (s.countRed).ctx = s.ctx := rfl
@[simp] theorem countRed_seq : (s.countRed).seq = s.seq := rfl
@[simp] theorem countRed_w : (s.countRed).w = s.w := rfl
@[simp] theorem countRed_prog : (s.countRed).prog = s.prog := rfl
@[simp] theorem countRed_scan : (s.countRed).scan = s.scan := rfl
@[simp] theorem countRed_mem : (s.countRed).mem = s.mem := rfl
@[simp] theorem countRed_rdata : (s.countRed).rdata = s.rdata := rfl
@[simp] theorem countRed_turns : (s.countRed).turns = s.turns := rfl
@[simp] theorem countRed_kernel : (s.countRed).kernel = s.kernel := rfl
@[simp] theorem countRed_draws : (s.countRed).draws = s.draws := rfl

/-! ## dropWrite -/

@[simp] theorem dropWrite_params : (s.dropWrite).params = s.params := rfl
@[simp] theorem dropWrite_ie : (s.dropWrite).ie = s.ie := rfl
@[simp] theorem dropWrite_busyWr : (s.dropWrite).busyWr = true := rfl
@[simp] theorem dropWrite_err : (s.dropWrite).err = s.err := rfl
@[simp] theorem dropWrite_glen : (s.dropWrite).glen = s.glen := rfl
@[simp] theorem dropWrite_xlen : (s.dropWrite).xlen = s.xlen := rfl
@[simp] theorem dropWrite_plen : (s.dropWrite).plen = s.plen := rfl
@[simp] theorem dropWrite_ylen : (s.dropWrite).ylen = s.ylen := rfl
@[simp] theorem dropWrite_sqrCnt : (s.dropWrite).sqrCnt = s.sqrCnt := rfl
@[simp] theorem dropWrite_mulCnt : (s.dropWrite).mulCnt = s.mulCnt := rfl
@[simp] theorem dropWrite_redCnt : (s.dropWrite).redCnt = s.redCnt := rfl
@[simp] theorem dropWrite_lastUop : (s.dropWrite).lastUop = s.lastUop := rfl
@[simp] theorem dropWrite_errUop : (s.dropWrite).errUop = s.errUop := rfl
@[simp] theorem dropWrite_held : (s.dropWrite).held = s.held := rfl
@[simp] theorem dropWrite_slots : (s.dropWrite).slots = s.slots := rfl
@[simp] theorem dropWrite_res : (s.dropWrite).res = s.res := rfl
@[simp] theorem dropWrite_ctx : (s.dropWrite).ctx = s.ctx := rfl
@[simp] theorem dropWrite_seq : (s.dropWrite).seq = s.seq := rfl
@[simp] theorem dropWrite_w : (s.dropWrite).w = s.w := rfl
@[simp] theorem dropWrite_prog : (s.dropWrite).prog = s.prog := rfl
@[simp] theorem dropWrite_scan : (s.dropWrite).scan = s.scan := rfl
@[simp] theorem dropWrite_mem : (s.dropWrite).mem = s.mem := rfl
@[simp] theorem dropWrite_rdata : (s.dropWrite).rdata = s.rdata := rfl
@[simp] theorem dropWrite_turns : (s.dropWrite).turns = s.turns := rfl
@[simp] theorem dropWrite_kernel : (s.dropWrite).kernel = s.kernel := rfl
@[simp] theorem dropWrite_draws : (s.dropWrite).draws = s.draws := rfl

/-! ## setIe -/

@[simp] theorem setIe_params (b : Bool) : (s.setIe b).params = s.params := rfl
@[simp] theorem setIe_ie (b : Bool) : (s.setIe b).ie = b := rfl
@[simp] theorem setIe_busyWr (b : Bool) : (s.setIe b).busyWr = s.busyWr := rfl
@[simp] theorem setIe_err (b : Bool) : (s.setIe b).err = s.err := rfl
@[simp] theorem setIe_glen (b : Bool) : (s.setIe b).glen = s.glen := rfl
@[simp] theorem setIe_xlen (b : Bool) : (s.setIe b).xlen = s.xlen := rfl
@[simp] theorem setIe_plen (b : Bool) : (s.setIe b).plen = s.plen := rfl
@[simp] theorem setIe_ylen (b : Bool) : (s.setIe b).ylen = s.ylen := rfl
@[simp] theorem setIe_sqrCnt (b : Bool) : (s.setIe b).sqrCnt = s.sqrCnt := rfl
@[simp] theorem setIe_mulCnt (b : Bool) : (s.setIe b).mulCnt = s.mulCnt := rfl
@[simp] theorem setIe_redCnt (b : Bool) : (s.setIe b).redCnt = s.redCnt := rfl
@[simp] theorem setIe_lastUop (b : Bool) : (s.setIe b).lastUop = s.lastUop := rfl
@[simp] theorem setIe_errUop (b : Bool) : (s.setIe b).errUop = s.errUop := rfl
@[simp] theorem setIe_held (b : Bool) : (s.setIe b).held = s.held := rfl
@[simp] theorem setIe_slots (b : Bool) : (s.setIe b).slots = s.slots := rfl
@[simp] theorem setIe_res (b : Bool) : (s.setIe b).res = s.res := rfl
@[simp] theorem setIe_ctx (b : Bool) : (s.setIe b).ctx = s.ctx := rfl
@[simp] theorem setIe_seq (b : Bool) : (s.setIe b).seq = s.seq := rfl
@[simp] theorem setIe_w (b : Bool) : (s.setIe b).w = s.w := rfl
@[simp] theorem setIe_prog (b : Bool) : (s.setIe b).prog = s.prog := rfl
@[simp] theorem setIe_scan (b : Bool) : (s.setIe b).scan = s.scan := rfl
@[simp] theorem setIe_mem (b : Bool) : (s.setIe b).mem = s.mem := rfl
@[simp] theorem setIe_rdata (b : Bool) : (s.setIe b).rdata = s.rdata := rfl
@[simp] theorem setIe_turns (b : Bool) : (s.setIe b).turns = s.turns := rfl
@[simp] theorem setIe_kernel (b : Bool) : (s.setIe b).kernel = s.kernel := rfl
@[simp] theorem setIe_draws (b : Bool) : (s.setIe b).draws = s.draws := rfl

/-! ## setLen -/

@[simp] theorem setLen_params (a : Operand) (v : Word) : (s.setLen a v).params = s.params := by cases a <;> rfl
@[simp] theorem setLen_ie (a : Operand) (v : Word) : (s.setLen a v).ie = s.ie := by cases a <;> rfl
@[simp] theorem setLen_busyWr (a : Operand) (v : Word) : (s.setLen a v).busyWr = s.busyWr := by cases a <;> rfl
@[simp] theorem setLen_err (a : Operand) (v : Word) : (s.setLen a v).err = s.err := by cases a <;> rfl
@[simp] theorem setLen_ylen (a : Operand) (v : Word) : (s.setLen a v).ylen = s.ylen := by cases a <;> rfl
@[simp] theorem setLen_sqrCnt (a : Operand) (v : Word) : (s.setLen a v).sqrCnt = s.sqrCnt := by cases a <;> rfl
@[simp] theorem setLen_mulCnt (a : Operand) (v : Word) : (s.setLen a v).mulCnt = s.mulCnt := by cases a <;> rfl
@[simp] theorem setLen_redCnt (a : Operand) (v : Word) : (s.setLen a v).redCnt = s.redCnt := by cases a <;> rfl
@[simp] theorem setLen_lastUop (a : Operand) (v : Word) : (s.setLen a v).lastUop = s.lastUop := by cases a <;> rfl
@[simp] theorem setLen_errUop (a : Operand) (v : Word) : (s.setLen a v).errUop = s.errUop := by cases a <;> rfl
@[simp] theorem setLen_held (a : Operand) (v : Word) : (s.setLen a v).held = s.held := by cases a <;> rfl
@[simp] theorem setLen_slots (a : Operand) (v : Word) : (s.setLen a v).slots = s.slots := by cases a <;> rfl
@[simp] theorem setLen_res (a : Operand) (v : Word) : (s.setLen a v).res = s.res := by cases a <;> rfl
@[simp] theorem setLen_ctx (a : Operand) (v : Word) : (s.setLen a v).ctx = s.ctx := by cases a <;> rfl
@[simp] theorem setLen_seq (a : Operand) (v : Word) : (s.setLen a v).seq = s.seq := by cases a <;> rfl
@[simp] theorem setLen_w (a : Operand) (v : Word) : (s.setLen a v).w = s.w := by cases a <;> rfl
@[simp] theorem setLen_prog (a : Operand) (v : Word) : (s.setLen a v).prog = s.prog := by cases a <;> rfl
@[simp] theorem setLen_scan (a : Operand) (v : Word) : (s.setLen a v).scan = s.scan := by cases a <;> rfl
@[simp] theorem setLen_mem (a : Operand) (v : Word) : (s.setLen a v).mem = s.mem := by cases a <;> rfl
@[simp] theorem setLen_rdata (a : Operand) (v : Word) : (s.setLen a v).rdata = s.rdata := by cases a <;> rfl
@[simp] theorem setLen_turns (a : Operand) (v : Word) : (s.setLen a v).turns = s.turns := by cases a <;> rfl
@[simp] theorem setLen_kernel (a : Operand) (v : Word) : (s.setLen a v).kernel = s.kernel := by cases a <;> rfl
@[simp] theorem setLen_draws (a : Operand) (v : Word) : (s.setLen a v).draws = s.draws := by cases a <;> rfl

/-! ## beginRun -/

@[simp] theorem beginRun_params : (s.beginRun).params = s.params := rfl
@[simp] theorem beginRun_ie : (s.beginRun).ie = s.ie := rfl
@[simp] theorem beginRun_busyWr : (s.beginRun).busyWr = false := rfl
@[simp] theorem beginRun_err : (s.beginRun).err = none := rfl
@[simp] theorem beginRun_glen : (s.beginRun).glen = s.glen := rfl
@[simp] theorem beginRun_xlen : (s.beginRun).xlen = s.xlen := rfl
@[simp] theorem beginRun_plen : (s.beginRun).plen = s.plen := rfl
@[simp] theorem beginRun_ylen : (s.beginRun).ylen = s.ylen := rfl
@[simp] theorem beginRun_sqrCnt : (s.beginRun).sqrCnt = 0#32 := rfl
@[simp] theorem beginRun_mulCnt : (s.beginRun).mulCnt = 0#32 := rfl
@[simp] theorem beginRun_redCnt : (s.beginRun).redCnt = 0#32 := rfl
@[simp] theorem beginRun_lastUop : (s.beginRun).lastUop = 0#32 := rfl
@[simp] theorem beginRun_errUop : (s.beginRun).errUop = 0#32 := rfl
@[simp] theorem beginRun_held : (s.beginRun).held = s.held := rfl
@[simp] theorem beginRun_slots : (s.beginRun).slots = s.slots := rfl
@[simp] theorem beginRun_res : (s.beginRun).res = s.res := rfl
@[simp] theorem beginRun_ctx : (s.beginRun).ctx = s.ctx := rfl
@[simp] theorem beginRun_seq : (s.beginRun).seq = .select := rfl
@[simp] theorem beginRun_w : (s.beginRun).w = 0 := rfl
@[simp] theorem beginRun_prog : (s.beginRun).prog = s.prog := rfl
@[simp] theorem beginRun_scan : (s.beginRun).scan = s.scan := rfl
@[simp] theorem beginRun_mem : (s.beginRun).mem = s.mem := rfl
@[simp] theorem beginRun_rdata : (s.beginRun).rdata = s.rdata := rfl
@[simp] theorem beginRun_turns : (s.beginRun).turns = s.turns := rfl
@[simp] theorem beginRun_kernel : (s.beginRun).kernel = s.kernel := rfl
@[simp] theorem beginRun_draws : (s.beginRun).draws = s.draws := rfl

/-! ## moveResult -/

@[simp] theorem moveResult_params : (s.moveResult).params = s.params := rfl
@[simp] theorem moveResult_ie : (s.moveResult).ie = s.ie := rfl
@[simp] theorem moveResult_busyWr : (s.moveResult).busyWr = s.busyWr := rfl
@[simp] theorem moveResult_err : (s.moveResult).err = s.err := rfl
@[simp] theorem moveResult_glen : (s.moveResult).glen = s.glen := rfl
@[simp] theorem moveResult_xlen : (s.moveResult).xlen = s.xlen := rfl
@[simp] theorem moveResult_plen : (s.moveResult).plen = s.plen := rfl
@[simp] theorem moveResult_ylen : (s.moveResult).ylen = BitVec.ofNat 32 (wordLength (s.regValue .res)) := rfl
@[simp] theorem moveResult_sqrCnt : (s.moveResult).sqrCnt = s.sqrCnt := rfl
@[simp] theorem moveResult_mulCnt : (s.moveResult).mulCnt = s.mulCnt := rfl
@[simp] theorem moveResult_redCnt : (s.moveResult).redCnt = s.redCnt := rfl
@[simp] theorem moveResult_lastUop : (s.moveResult).lastUop = s.lastUop := rfl
@[simp] theorem moveResult_errUop : (s.moveResult).errUop = s.errUop := rfl
@[simp] theorem moveResult_held : (s.moveResult).held = s.held := rfl
@[simp] theorem moveResult_slots : (s.moveResult).slots = s.slots := rfl
@[simp] theorem moveResult_res : (s.moveResult).res = none := rfl
@[simp] theorem moveResult_ctx : (s.moveResult).ctx = s.ctx := rfl
@[simp] theorem moveResult_seq : (s.moveResult).seq = s.seq := rfl
@[simp] theorem moveResult_w : (s.moveResult).w = s.w := rfl
@[simp] theorem moveResult_prog : (s.moveResult).prog = s.prog := rfl
@[simp] theorem moveResult_scan : (s.moveResult).scan = s.scan := rfl
@[simp] theorem moveResult_mem : (s.moveResult).mem = Memory.storeWords s.mem yBase (s.regValue .res) s.params.nwords := rfl
@[simp] theorem moveResult_rdata : (s.moveResult).rdata = s.rdata := rfl
@[simp] theorem moveResult_turns : (s.moveResult).turns = s.turns := rfl
@[simp] theorem moveResult_kernel : (s.moveResult).kernel = s.kernel := rfl
@[simp] theorem moveResult_draws : (s.moveResult).draws = s.draws := rfl

/-! ## busRead -/

@[simp] theorem busRead_params (v : Option Word) : (s.busRead v).params = s.params := by cases v <;> rfl
@[simp] theorem busRead_ie (v : Option Word) : (s.busRead v).ie = s.ie := by cases v <;> rfl
@[simp] theorem busRead_busyWr (v : Option Word) : (s.busRead v).busyWr = s.busyWr := by cases v <;> rfl
@[simp] theorem busRead_err (v : Option Word) : (s.busRead v).err = s.err := by cases v <;> rfl
@[simp] theorem busRead_glen (v : Option Word) : (s.busRead v).glen = s.glen := by cases v <;> rfl
@[simp] theorem busRead_xlen (v : Option Word) : (s.busRead v).xlen = s.xlen := by cases v <;> rfl
@[simp] theorem busRead_plen (v : Option Word) : (s.busRead v).plen = s.plen := by cases v <;> rfl
@[simp] theorem busRead_ylen (v : Option Word) : (s.busRead v).ylen = s.ylen := by cases v <;> rfl
@[simp] theorem busRead_sqrCnt (v : Option Word) : (s.busRead v).sqrCnt = s.sqrCnt := by cases v <;> rfl
@[simp] theorem busRead_mulCnt (v : Option Word) : (s.busRead v).mulCnt = s.mulCnt := by cases v <;> rfl
@[simp] theorem busRead_redCnt (v : Option Word) : (s.busRead v).redCnt = s.redCnt := by cases v <;> rfl
@[simp] theorem busRead_lastUop (v : Option Word) : (s.busRead v).lastUop = s.lastUop := by cases v <;> rfl
@[simp] theorem busRead_errUop (v : Option Word) : (s.busRead v).errUop = s.errUop := by cases v <;> rfl
@[simp] theorem busRead_held (v : Option Word) : (s.busRead v).held = s.held := by cases v <;> rfl
@[simp] theorem busRead_slots (v : Option Word) : (s.busRead v).slots = s.slots := by cases v <;> rfl
@[simp] theorem busRead_res (v : Option Word) : (s.busRead v).res = s.res := by cases v <;> rfl
@[simp] theorem busRead_ctx (v : Option Word) : (s.busRead v).ctx = s.ctx := by cases v <;> rfl
@[simp] theorem busRead_seq (v : Option Word) : (s.busRead v).seq = s.seq := by cases v <;> rfl
@[simp] theorem busRead_w (v : Option Word) : (s.busRead v).w = s.w := by cases v <;> rfl
@[simp] theorem busRead_prog (v : Option Word) : (s.busRead v).prog = s.prog := by cases v <;> rfl
@[simp] theorem busRead_scan (v : Option Word) : (s.busRead v).scan = s.scan := by cases v <;> rfl
@[simp] theorem busRead_mem (v : Option Word) : (s.busRead v).mem = s.mem := by cases v <;> rfl
@[simp] theorem busRead_turns (v : Option Word) : (s.busRead v).turns = s.turns := by cases v <;> rfl
@[simp] theorem busRead_kernel (v : Option Word) : (s.busRead v).kernel = s.kernel := by cases v <;> rfl

/-! ## selectStep -/

@[simp] theorem selectStep_params : (s.selectStep).params = s.params := rfl
@[simp] theorem selectStep_ie : (s.selectStep).ie = s.ie := rfl
@[simp] theorem selectStep_busyWr : (s.selectStep).busyWr = s.busyWr := rfl
@[simp] theorem selectStep_err : (s.selectStep).err = s.err := rfl
@[simp] theorem selectStep_glen : (s.selectStep).glen = s.glen := rfl
@[simp] theorem selectStep_xlen : (s.selectStep).xlen = s.xlen := rfl
@[simp] theorem selectStep_plen : (s.selectStep).plen = s.plen := rfl
@[simp] theorem selectStep_ylen : (s.selectStep).ylen = s.ylen := rfl
@[simp] theorem selectStep_sqrCnt : (s.selectStep).sqrCnt = s.sqrCnt := rfl
@[simp] theorem selectStep_mulCnt : (s.selectStep).mulCnt = s.mulCnt := rfl
@[simp] theorem selectStep_redCnt : (s.selectStep).redCnt = s.redCnt := rfl
@[simp] theorem selectStep_lastUop : (s.selectStep).lastUop = s.lastUop := rfl
@[simp] theorem selectStep_errUop : (s.selectStep).errUop = s.errUop := rfl
@[simp] theorem selectStep_held : (s.selectStep).held = s.held := rfl
@[simp] theorem selectStep_slots : (s.selectStep).slots = s.slots := rfl
@[simp] theorem selectStep_res : (s.selectStep).res = s.res := rfl
@[simp] theorem selectStep_ctx : (s.selectStep).ctx = s.ctx := rfl
@[simp] theorem selectStep_seq : (s.selectStep).seq = .run 0 := rfl
@[simp] theorem selectStep_w : (s.selectStep).w = windowSize (bitLength (s.op .x)) := rfl
@[simp] theorem selectStep_prog : (s.selectStep).prog = (issueProgram s.params.digitBit (s.op .x) (windowSize (bitLength (s.op .x)))).map uopWord := rfl
@[simp] theorem selectStep_scan : (s.selectStep).scan = (runScan s.params.digitBit (s.op .x) (windowSize (bitLength (s.op .x)))).1 := rfl
@[simp] theorem selectStep_mem : (s.selectStep).mem = s.mem := rfl
@[simp] theorem selectStep_rdata : (s.selectStep).rdata = s.rdata := rfl
@[simp] theorem selectStep_turns : (s.selectStep).turns = s.turns := rfl
@[simp] theorem selectStep_kernel : (s.selectStep).kernel = s.kernel := rfl
@[simp] theorem selectStep_draws : (s.selectStep).draws = s.draws := rfl

/-! ## takeTurn -/

@[simp] theorem takeTurn_params : (s.takeTurn).params = s.params := rfl
@[simp] theorem takeTurn_ie : (s.takeTurn).ie = s.ie := rfl
@[simp] theorem takeTurn_busyWr : (s.takeTurn).busyWr = s.busyWr := rfl
@[simp] theorem takeTurn_err : (s.takeTurn).err = s.err := rfl
@[simp] theorem takeTurn_glen : (s.takeTurn).glen = s.glen := rfl
@[simp] theorem takeTurn_xlen : (s.takeTurn).xlen = s.xlen := rfl
@[simp] theorem takeTurn_plen : (s.takeTurn).plen = s.plen := rfl
@[simp] theorem takeTurn_ylen : (s.takeTurn).ylen = s.ylen := rfl
@[simp] theorem takeTurn_sqrCnt : (s.takeTurn).sqrCnt = s.sqrCnt := rfl
@[simp] theorem takeTurn_mulCnt : (s.takeTurn).mulCnt = s.mulCnt := rfl
@[simp] theorem takeTurn_redCnt : (s.takeTurn).redCnt = s.redCnt := rfl
@[simp] theorem takeTurn_lastUop : (s.takeTurn).lastUop = s.lastUop := rfl
@[simp] theorem takeTurn_errUop : (s.takeTurn).errUop = s.errUop := rfl
@[simp] theorem takeTurn_held : (s.takeTurn).held = s.held := rfl
@[simp] theorem takeTurn_slots : (s.takeTurn).slots = s.slots := rfl
@[simp] theorem takeTurn_res : (s.takeTurn).res = s.res := rfl
@[simp] theorem takeTurn_ctx : (s.takeTurn).ctx = s.ctx := rfl
@[simp] theorem takeTurn_seq : (s.takeTurn).seq = s.seq := rfl
@[simp] theorem takeTurn_w : (s.takeTurn).w = s.w := rfl
@[simp] theorem takeTurn_prog : (s.takeTurn).prog = s.prog := rfl
@[simp] theorem takeTurn_scan : (s.takeTurn).scan = s.scan := rfl
@[simp] theorem takeTurn_mem : (s.takeTurn).mem = s.mem := rfl
@[simp] theorem takeTurn_rdata : (s.takeTurn).rdata = s.rdata := rfl
@[simp] theorem takeTurn_turns : (s.takeTurn).turns = s.turns.tail := rfl
@[simp] theorem takeTurn_kernel : (s.takeTurn).kernel = s.kernel := rfl
@[simp] theorem takeTurn_draws : (s.takeTurn).draws = s.draws := rfl

/-! ## placeUop -/

@[simp] theorem placeUop_params (u : Word) : (s.placeUop u).params = s.params := rfl
@[simp] theorem placeUop_ie (u : Word) : (s.placeUop u).ie = s.ie := rfl
@[simp] theorem placeUop_busyWr (u : Word) : (s.placeUop u).busyWr = s.busyWr := rfl
@[simp] theorem placeUop_err (u : Word) : (s.placeUop u).err = s.err := rfl
@[simp] theorem placeUop_glen (u : Word) : (s.placeUop u).glen = s.glen := rfl
@[simp] theorem placeUop_xlen (u : Word) : (s.placeUop u).xlen = s.xlen := rfl
@[simp] theorem placeUop_plen (u : Word) : (s.placeUop u).plen = s.plen := rfl
@[simp] theorem placeUop_ylen (u : Word) : (s.placeUop u).ylen = s.ylen := rfl
@[simp] theorem placeUop_sqrCnt (u : Word) : (s.placeUop u).sqrCnt = s.sqrCnt := rfl
@[simp] theorem placeUop_mulCnt (u : Word) : (s.placeUop u).mulCnt = s.mulCnt := rfl
@[simp] theorem placeUop_redCnt (u : Word) : (s.placeUop u).redCnt = s.redCnt := rfl
@[simp] theorem placeUop_lastUop (u : Word) : (s.placeUop u).lastUop = s.lastUop := rfl
@[simp] theorem placeUop_errUop (u : Word) : (s.placeUop u).errUop = s.errUop := rfl
@[simp] theorem placeUop_held (u : Word) : (s.placeUop u).held = s.held := rfl
@[simp] theorem placeUop_slots (u : Word) : (s.placeUop u).slots = s.slots := rfl
@[simp] theorem placeUop_res (u : Word) : (s.placeUop u).res = s.res := rfl
@[simp] theorem placeUop_ctx (u : Word) : (s.placeUop u).ctx = s.ctx := rfl
@[simp] theorem placeUop_seq (u : Word) : (s.placeUop u).seq = .run 0 := rfl
@[simp] theorem placeUop_w (u : Word) : (s.placeUop u).w = placedWindow s.w u := rfl
@[simp] theorem placeUop_prog (u : Word) : (s.placeUop u).prog = [u] := rfl
@[simp] theorem placeUop_scan (u : Word) : (s.placeUop u).scan = s.scan := rfl
@[simp] theorem placeUop_mem (u : Word) : (s.placeUop u).mem = s.mem := rfl
@[simp] theorem placeUop_rdata (u : Word) : (s.placeUop u).rdata = s.rdata := rfl
@[simp] theorem placeUop_turns (u : Word) : (s.placeUop u).turns = .engine :: s.turns := rfl
@[simp] theorem placeUop_kernel (u : Word) : (s.placeUop u).kernel = s.kernel := rfl
@[simp] theorem placeUop_draws (u : Word) : (s.placeUop u).draws = s.draws := rfl

/-! ## placeHost -/

@[simp] theorem placeHost_params (t : Transaction) : (s.placeHost t).params = s.params := rfl
@[simp] theorem placeHost_ie (t : Transaction) : (s.placeHost t).ie = s.ie := rfl
@[simp] theorem placeHost_busyWr (t : Transaction) : (s.placeHost t).busyWr = s.busyWr := rfl
@[simp] theorem placeHost_err (t : Transaction) : (s.placeHost t).err = s.err := rfl
@[simp] theorem placeHost_glen (t : Transaction) : (s.placeHost t).glen = s.glen := rfl
@[simp] theorem placeHost_xlen (t : Transaction) : (s.placeHost t).xlen = s.xlen := rfl
@[simp] theorem placeHost_plen (t : Transaction) : (s.placeHost t).plen = s.plen := rfl
@[simp] theorem placeHost_ylen (t : Transaction) : (s.placeHost t).ylen = s.ylen := rfl
@[simp] theorem placeHost_sqrCnt (t : Transaction) : (s.placeHost t).sqrCnt = s.sqrCnt := rfl
@[simp] theorem placeHost_mulCnt (t : Transaction) : (s.placeHost t).mulCnt = s.mulCnt := rfl
@[simp] theorem placeHost_redCnt (t : Transaction) : (s.placeHost t).redCnt = s.redCnt := rfl
@[simp] theorem placeHost_lastUop (t : Transaction) : (s.placeHost t).lastUop = s.lastUop := rfl
@[simp] theorem placeHost_errUop (t : Transaction) : (s.placeHost t).errUop = s.errUop := rfl
@[simp] theorem placeHost_held (t : Transaction) : (s.placeHost t).held = s.held := rfl
@[simp] theorem placeHost_slots (t : Transaction) : (s.placeHost t).slots = s.slots := rfl
@[simp] theorem placeHost_res (t : Transaction) : (s.placeHost t).res = s.res := rfl
@[simp] theorem placeHost_ctx (t : Transaction) : (s.placeHost t).ctx = s.ctx := rfl
@[simp] theorem placeHost_seq (t : Transaction) : (s.placeHost t).seq = s.seq := rfl
@[simp] theorem placeHost_w (t : Transaction) : (s.placeHost t).w = s.w := rfl
@[simp] theorem placeHost_prog (t : Transaction) : (s.placeHost t).prog = s.prog := rfl
@[simp] theorem placeHost_scan (t : Transaction) : (s.placeHost t).scan = s.scan := rfl
@[simp] theorem placeHost_mem (t : Transaction) : (s.placeHost t).mem = s.mem := rfl
@[simp] theorem placeHost_rdata (t : Transaction) : (s.placeHost t).rdata = s.rdata := rfl
@[simp] theorem placeHost_turns (t : Transaction) : (s.placeHost t).turns = .host t :: s.turns := rfl
@[simp] theorem placeHost_kernel (t : Transaction) : (s.placeHost t).kernel = s.kernel := rfl
@[simp] theorem placeHost_draws (t : Transaction) : (s.placeHost t).draws = s.draws := rfl

end Sys2Proof.Machine
end

