-- ==== Sys2Proof/Laws/Registers.lean ====
section
/-! SUPPORT. The datapath registers, the held set and the operand values after each update. -/

namespace Sys2Proof.Machine

/-! ## Registers -/

/-- A register after a register is written: the one written has the new value, every other its own. -/
theorem readReg_putReg (s : State) (r q : Reg) (v : Option Nat) :
    (s.putReg r v).readReg q = if q = r then v else s.readReg q := by
  cases r <;> cases q <;> simp [State.putReg, State.readReg]
  rename_i k j
  by_cases h : j = k
  · subst h; simp
  · have hne : k.toNat ≠ j.toNat := fun e => h (BitVec.eq_of_toNat_eq e.symm)
    rw [if_neg h, Vector.getElem_set_ne _ _ hne]

@[simp] theorem readReg_putReg_same (s : State) (r : Reg) (v : Option Nat) : (s.putReg r v).readReg r = v := by
  simp [readReg_putReg]

theorem readReg_putReg_other (s : State) {r q : Reg} (v : Option Nat) (h : q ≠ r) :
    (s.putReg r v).readReg q = s.readReg q := by
  simp [readReg_putReg, h]

theorem readReg_writeReg (s : State) (r q : Reg) (v : Nat) :
    (s.writeReg r v).readReg q = if q = r then some v else s.readReg q := readReg_putReg s r q (some v)

theorem readReg_depopulate (s : State) (r q : Reg) :
    (s.depopulate r).readReg q = if q = r then none else s.readReg q := readReg_putReg s r q none

/-- Registers with the same storage read the same. -/
theorem readReg_congr {s t : State} (h1 : s.slots = t.slots) (h2 : s.res = t.res) (h3 : s.ctx = t.ctx) (q : Reg) :
    s.readReg q = t.readReg q := by
  cases q <;> simp [State.readReg, h1, h2, h3]

@[simp] theorem readReg_releaseAll (s : State) (q : Reg) : s.releaseAll.readReg q = none := by
  cases q <;> simp [State.readReg, State.releaseAll]

@[simp] theorem readReg_onReset (s : State) (q : Reg) : s.onReset.readReg q = none := by
  cases q <;> simp [State.readReg]

@[simp] theorem readReg_setLastUop (s : State) (u : Word) (q : Reg) : (s.setLastUop u).readReg q = s.readReg q := by
  cases q <;> rfl

@[simp] theorem readReg_takeAnswer (s : State) (q : Reg) : s.takeAnswer.readReg q = s.readReg q :=
  readReg_congr (by simp) (by simp) (by simp) q

@[simp] theorem readReg_advance (s : State) (q : Reg) : s.advance.readReg q = s.readReg q := by cases q <;> rfl

@[simp] theorem readReg_countSqr (s : State) (q : Reg) : s.countSqr.readReg q = s.readReg q := by cases q <;> rfl

@[simp] theorem readReg_countMul (s : State) (q : Reg) : s.countMul.readReg q = s.readReg q := by cases q <;> rfl

@[simp] theorem readReg_countRed (s : State) (q : Reg) : s.countRed.readReg q = s.readReg q := by cases q <;> rfl

@[simp] theorem readReg_takeTurn (s : State) (q : Reg) : s.takeTurn.readReg q = s.readReg q := by cases q <;> rfl

@[simp] theorem readReg_selectStep (s : State) (q : Reg) : s.selectStep.readReg q = s.readReg q := by cases q <;> rfl

@[simp] theorem readReg_dropWrite (s : State) (q : Reg) : s.dropWrite.readReg q = s.readReg q := by cases q <;> rfl

@[simp] theorem readReg_setIe (s : State) (b : Bool) (q : Reg) : (s.setIe b).readReg q = s.readReg q := by
  cases q <;> rfl

@[simp] theorem readReg_setLen (s : State) (a : Operand) (v : Word) (q : Reg) :
    (s.setLen a v).readReg q = s.readReg q :=
  readReg_congr (by simp) (by simp) (by simp) q

@[simp] theorem readReg_acknowledge (s : State) (q : Reg) : s.acknowledge.readReg q = s.readReg q := by
  cases q <;> rfl

@[simp] theorem readReg_beginRun (s : State) (q : Reg) : s.beginRun.readReg q = s.readReg q := by cases q <;> rfl

@[simp] theorem readReg_busRead (s : State) (v : Option Word) (q : Reg) : (s.busRead v).readReg q = s.readReg q :=
  readReg_congr (by simp) (by simp) (by simp) q

/-- A register after an ACQ: the one acquired has no value. -/
theorem readReg_acquire (s : State) (r q : Reg) :
    (s.acquire r).readReg q = if q = r then none else s.readReg q := by
  rw [← readReg_depopulate]
  exact readReg_congr (by simp [State.acquire]) (by simp [State.acquire]) (by simp [State.acquire]) q

/-- A register after the result is moved out: RES has no value. -/
theorem readReg_moveResult (s : State) (q : Reg) :
    s.moveResult.readReg q = if q = .res then none else s.readReg q := by
  cases q <;> simp [State.readReg]

/-- A register after a failure: the destination, if there is one, has no value. -/
theorem readReg_enterFailure (s : State) (k : FailKind) (u : Word) (d : Option Reg) (q : Reg) :
    (s.enterFailure k u d).readReg q = if some q = d then none else s.readReg q := by
  cases d with
  | none => simp only [reduceCtorEq, if_false]; cases q <;> rfl
  | some r =>
    simp only [Option.some.injEq]
    rw [← readReg_depopulate]
    cases q <;> rfl

/-! ## Operand values -/

/-- Operand values depend on memory and lengths alone. -/
theorem op_congr {s t : State} (hm : s.mem = t.mem) (hl : ∀ a, s.len a = t.len a) (a : Operand) : s.op a = t.op a := by
  simp [State.op, hm, hl]

/-- Lengths with the same storage are the same. -/
theorem len_congr {s t : State} (h1 : s.glen = t.glen) (h2 : s.xlen = t.xlen) (h3 : s.plen = t.plen) (a : Operand) :
    s.len a = t.len a := by
  cases a <;> simp [State.len, h1, h2, h3]

theorem len_setLen (s : State) (a b : Operand) (v : Word) :
    (s.setLen a v).len b = if b = a then v else s.len b := by
  cases a <;> cases b <;> rfl

/-- An operand is below `2^(32*NWORDS)` when its length is legal (R9). -/
theorem op_lt (s : State) (a : Operand) (h : (s.len a).toNat ≤ s.params.nwords) :
    s.op a < 2 ^ (32 * s.params.nwords) :=
  Nat.lt_of_lt_of_le (value_lt _ _ _) (Nat.pow_le_pow_right (by omega) (by omega))

@[simp] theorem op_setLastUop (s : State) (u : Word) (a : Operand) : (s.setLastUop u).op a = s.op a :=
  op_congr rfl (fun b => by cases b <;> rfl) a

@[simp] theorem op_takeAnswer (s : State) (a : Operand) : s.takeAnswer.op a = s.op a :=
  op_congr (by simp) (len_congr (by simp) (by simp) (by simp)) a

@[simp] theorem op_takeTurn (s : State) (a : Operand) : s.takeTurn.op a = s.op a :=
  op_congr rfl (fun b => by cases b <;> rfl) a

@[simp] theorem op_writeReg (s : State) (r : Reg) (v : Nat) (a : Operand) : (s.writeReg r v).op a = s.op a :=
  op_congr (by simp) (len_congr (by simp) (by simp) (by simp)) a

@[simp] theorem op_advance (s : State) (a : Operand) : s.advance.op a = s.op a :=
  op_congr rfl (fun b => by cases b <;> rfl) a

@[simp] theorem op_selectStep (s : State) (a : Operand) : s.selectStep.op a = s.op a :=
  op_congr rfl (fun b => by cases b <;> rfl) a

/-! ## Positions -/

@[simp] theorem kernelAnswer_setLastUop (s : State) (u : Word) : (s.setLastUop u).kernelAnswer = s.kernelAnswer := rfl

@[simp] theorem kernelAnswer_takeTurn (s : State) : s.takeTurn.kernelAnswer = s.kernelAnswer := rfl

/-- The next position depends on the position and on how long the program is. -/
theorem nextSeq_congr {s t : State} (h1 : s.seq = t.seq) (h2 : s.prog = t.prog) : s.nextSeq = t.nextSeq := by
  simp [State.nextSeq, h1, h2]

/-- The block is busy exactly in Select, Run and Cleanup (R36). -/
theorem busy_congr {s t : State} (h : s.seq = t.seq) : s.busy = t.busy := by simp [State.busy, h]

end Sys2Proof.Machine
end

