-- ==== Sys2Proof/Laws/Host.lean ====
section
/-! SUPPORT. What a host access can do, said once: a read, and each kind of write. -/

namespace Sys2Proof.Machine

/-! ## Busy or not -/

/-- START while busy is dropped (R103). -/
theorem start_busy {s : State} (h : s.busy = true) : s.start = .next s.dropWrite := by simp [State.start, h]

/-- START with every operand word written begins a run (R103). -/
theorem start_accepted {s : State} (h : s.busy = false) (hw : s.operandsWritten = true) :
    s.start = .next s.beginRun := by
  simp [State.start, h, hw]

/-- START with an unwritten operand word is a model fault (R109). -/
theorem start_unwritten {s : State} (h : s.busy = false) (hw : s.operandsWritten = false) :
    s.start = .fault .unwrittenOperand := by
  simp [State.start, h, hw]

/-- If START answers a next state, it was dropped, or a run began with its operands written. -/
theorem start_next {s t : State} (h : s.start = .next t) :
    (s.busy = true ∧ t = s.dropWrite) ∨ (s.busy = false ∧ s.operandsWritten = true ∧ t = s.beginRun) := by
  unfold State.start at h
  split at h
  · cases h; exact .inl ⟨‹_›, rfl⟩
  · rename_i hb
    split at h
    · cases h; exact .inr ⟨by simpa using hb, ‹_›, rfl⟩
    · cases h

theorem clear_busy {s : State} (h : s.busy = true) : s.clear = s.dropWrite := by simp [State.clear, h]

theorem clear_idle {s : State} (h : s.busy = false) : s.clear = s.acknowledge := by simp [State.clear, h]

/-- CLEAR drops itself or acknowledges. -/
theorem clear_cases (s : State) :
    (s.busy = true ∧ s.clear = s.dropWrite) ∨ (s.busy = false ∧ s.clear = s.acknowledge) := by
  unfold State.clear
  cases s.busy <;> simp

@[simp] theorem busy_setIe (s : State) (b : Bool) : (s.setIe b).busy = s.busy := rfl

@[simp] theorem busy_dropWrite (s : State) : s.dropWrite.busy = s.busy := rfl

@[simp] theorem busy_acknowledge (s : State) : s.acknowledge.busy = false := rfl

@[simp] theorem operandsWritten_setIe (s : State) (b : Bool) : (s.setIe b).operandsWritten = s.operandsWritten := rfl

@[simp] theorem operandsWritten_acknowledge (s : State) : s.acknowledge.operandsWritten = s.operandsWritten := rfl

/-- What a length write does (R106). -/
theorem writeLen_cases (s : State) (a : Operand) (v : Word) :
    (s.busy = true ∧ s.writeLen a v = s.dropWrite) ∨
    (s.busy = false ∧ s.writeLen a v = s.setLen a (BitVec.ofNat 32 (min v.toNat s.params.nwords))) := by
  unfold State.writeLen
  cases s.busy <;> simp

/-- What an operand word write does (R107). -/
theorem writeWord_cases (s : State) (a : Operand) (i : Nat) (v : Word) :
    (s.busy = true ∧ s.writeWord a i v = s.dropWrite) ∨
    (s.busy = false ∧ s.writeWord a i v = { s with mem := Memory.storeWord s.mem (a.base + 4 * i) v }) := by
  unfold State.writeWord
  cases s.busy <;> simp

/-- The clamped length is legal (R31). -/
theorem clampedLength_le (v : Word) (n : Nat) : (BitVec.ofNat 32 (min v.toNat n)).toNat ≤ n := by
  rw [BitVec.toNat_ofNat]
  exact Nat.le_trans (Nat.mod_le _ _) (Nat.min_le_right _ _)

/-! ## The shape of a host access that answers a next state -/

/-- What a host transaction does to the block, when it answers a next state: one of the host steps of R100 to R107. -/
inductive HostEffect (s : State) : State → Prop where
  | none : HostEffect s s
  | read (v : Option Word) : HostEffect s (s.busRead v)
  | dropped : HostEffect s s.dropWrite
  | len (a : Operand) (v : Word) (idle : s.busy = false) :
      HostEffect s (s.setLen a (BitVec.ofNat 32 (min v.toNat s.params.nwords)))
  | word (a : Operand) (i : Nat) (v : Word) (idle : s.busy = false) (fits : i < s.params.nwords) :
      HostEffect s { s with mem := Memory.storeWord s.mem (a.base + 4 * i) v }
  | ie (b : Bool) : HostEffect s (s.setIe b)
  | ieDropped (b : Bool) (busy : s.busy = true) : HostEffect s (s.setIe b).dropWrite
  | ieCleared (b : Bool) (idle : s.busy = false) : HostEffect s (s.setIe b).acknowledge
  | ieStarted (b : Bool) (idle : s.busy = false) (written : s.operandsWritten = true) :
      HostEffect s (s.setIe b).beginRun
  | ieRestarted (b : Bool) (idle : s.busy = false) (written : s.operandsWritten = true) :
      HostEffect s (s.setIe b).acknowledge.beginRun

/-- A CTRL write does one of four things after IE (R102). -/
theorem writeCtrl_effect {s t : State} {ie clear start : Bool} (h : s.writeCtrl ie clear start = .next t) :
    HostEffect s t := by
  unfold State.writeCtrl at h
  cases clear <;> cases start <;> simp only [Bool.false_eq_true, if_false, if_true] at h
  · cases h; exact .ie ie
  · rcases start_next h with ⟨hb, rfl⟩ | ⟨hb, hw, rfl⟩
    · exact .ieDropped ie hb
    · exact .ieStarted ie hb hw
  · cases h
    rcases clear_cases (s.setIe ie) with ⟨hb, he⟩ | ⟨hb, he⟩ <;> rw [he]
    · exact .ieDropped ie hb
    · exact .ieCleared ie hb
  · rcases clear_cases (s.setIe ie) with ⟨hb, he⟩ | ⟨hb, he⟩ <;> rw [he] at h
    · rw [start_busy (by simpa using hb)] at h
      cases h
      exact .ieDropped ie hb
    · rcases start_next h with ⟨hb', rfl⟩ | ⟨_, hw, rfl⟩
      · simp at hb'
      · exact .ieRestarted ie hb hw

/-- A length write is one of two host steps (R106). -/
theorem writeLen_effect (s : State) (a : Operand) (v : Word) : HostEffect s (s.writeLen a v) := by
  rcases writeLen_cases s a v with ⟨_, h⟩ | ⟨hb, h⟩ <;> rw [h]
  · exact .dropped
  · exact .len a v hb

/-- An operand word write is one of two host steps (R107). -/
theorem writeWord_effect (s : State) (a : Operand) {i : Nat} (v : Word) (hi : i < s.params.nwords) :
    HostEffect s (s.writeWord a i v) := by
  rcases writeWord_cases s a i v with ⟨_, h⟩ | ⟨hb, h⟩ <;> rw [h]
  · exact .dropped
  · exact .word a i v hb hi

/-- A window write is one of three host steps (R67, R107). -/
theorem writeWindow_effect (s : State) (a : Operand) (i : Nat) (v : Word) : HostEffect s (s.writeWindow a i v) := by
  unfold State.writeWindow
  split
  · exact writeWord_effect s a v ‹_›
  · exact .none

/-- An operand word that an offset leads to is one the memory has (R61). -/
theorem hostTarget_mem_lt {p : Params} {off : Offset} {a : Operand} {i : Nat} (h : hostTarget p off = .mem a i) :
    i < p.nwords := by
  simp only [hostTarget] at h
  split at h
  · split at h <;> cases h
  · split at h
    · cases h
    · split at h
      · cases h; omega
      · split at h
        · cases h; omega
        · split at h
          · cases h; omega
          · split at h <;> cases h

/-- A write to a target is one of the host steps. -/
theorem writeTarget_effect {s t : State} {g : Target} {data : Word} (hg : ∀ a i, g = .mem a i → i < s.params.nwords)
    (h : s.writeTarget g data = .next t) : HostEffect s t := by
  cases g with
  | reg r => cases r <;> first | exact writeCtrl_effect h | (cases h; exact writeLen_effect s _ data) | (cases h; exact .none)
  | mem a i => cases h; exact writeWord_effect s a data (hg a i rfl)
  | yMem i => cases h; exact .none
  | reserved => cases h; exact .none

/-- Every host transaction that answers a next state does one of the host steps. -/
theorem exec_host_effect {i : Instr} (hi : i.isUop = false) {s t : State} (h : exec i s = .next t) : HostEffect s t := by
  cases i with
  | busRd off => cases h; exact .read _
  | busWr off data => exact writeTarget_effect (fun a j hj => hostTarget_mem_lt hj) h
  | cmdNone ie => exact writeCtrl_effect (ie := ie) (clear := false) (start := false) h
  | cmdStart ie => exact writeCtrl_effect (ie := ie) (clear := false) (start := true) h
  | cmdClear ie => exact writeCtrl_effect (ie := ie) (clear := true) (start := false) h
  | cmdClearStart ie => exact writeCtrl_effect (ie := ie) (clear := true) (start := true) h
  | glenWr data => cases h; exact writeLen_effect s _ data
  | xlenWr data => cases h; exact writeLen_effect s _ data
  | plenWr data => cases h; exact writeLen_effect s _ data
  | gMemWr n data => cases h; exact writeWindow_effect s _ _ data
  | xMemWr n data => cases h; exact writeWindow_effect s _ _ data
  | pMemWr n data => cases h; exact writeWindow_effect s _ _ data
  | _ => cases hi

end Sys2Proof.Machine
end

