-- ==== Sys2Proof/Laws/Issue.lean ====
section
/-! SUPPORT. What issuing a micro-op can do, said once; and the one shape that the fifteen micro-op meanings have. -/

namespace Sys2Proof.Machine

/-! ## Issuing -/

/-- If an issue answers a next state, the operands were admitted, no precondition was violated, and the state is the body's. -/
theorem issue_next {i : Instr} {s t : State} {body : State → State} (h : issue i s body = .next t) :
    i.admitted s.w = true ∧ preconditionFault s i = none ∧ t = body (s.setLastUop (uopWord i)) := by
  unfold issue at h
  split at h
  · split at h
    · cases h
    · cases h; exact ⟨‹_›, ‹_›, rfl⟩
  · cases h

/-- An admitted micro-op with its preconditions met goes on. -/
theorem issue_of_admitted {i : Instr} {s : State} {body : State → State} (ha : i.admitted s.w = true)
    (hp : preconditionFault s i = none) : issue i s body = .next (body (s.setLastUop (uopWord i))) := by
  simp [issue, ha, hp]

/-- A micro-op that the window size does not admit is an illegal one (R88). -/
theorem issue_illegal {i : Instr} {s : State} {body : State → State} (ha : i.admitted s.w = false) :
    issue i s body = .fault .illegalUop := by
  simp [issue, ha]

/-- A violated precondition is the fault it names (R131). -/
theorem issue_fault {i : Instr} {s : State} {body : State → State} {f : Fault} (ha : i.admitted s.w = true)
    (hp : preconditionFault s i = some f) : issue i s body = .fault f := by
  simp [issue, ha, hp]

/-- An issue never refuses. -/
theorem issue_not_refused {i : Instr} {s : State} {body : State → State} {r : Refusal} : issue i s body ≠ .refused r := by
  unfold issue
  split
  · split <;> simp
  · simp

/-! ## The kernel -/

/-- A fallible micro-op whose kernel answer is no failure has its effect and moves on. -/
theorem fallible_ok {i : Instr} {s : State} {effect : State → State} (h : kernelFailure i s.kernelAnswer = none) :
    fallible i effect s = (effect s.takeAnswer).advance := by
  simp [fallible, h]

/-- A fallible micro-op whose kernel answer is a failure enters it. -/
theorem fallible_fail {i : Instr} {s : State} {effect : State → State} {k : FailKind}
    (h : kernelFailure i s.kernelAnswer = some k) :
    fallible i effect s = s.takeAnswer.enterFailure k (uopWord i) (destination i) := by
  simp [fallible, h]

@[simp] theorem kernelFailure_ok (i : Instr) : kernelFailure i .ok = none := by cases i <;> rfl

/-- An answer that is not `ok` is a failure. -/
theorem kernelFailure_isSome {i : Instr} {a : KAnswer} (h : a ≠ .ok) : (kernelFailure i a).isSome := by
  cases a
  · exact absurd rfl h
  · cases i <;> rfl
  · cases i <;> rfl

/-! ## The preconditions -/

/-- What holds when no precondition of R131 is violated. -/
theorem preconditionFault_none {s : State} {i : Instr} (h : preconditionFault s i = none) :
    (∀ r, acquired i = some r → r ∉ s.held) ∧
    (acquired i = none → (∀ r ∈ named i, r ∈ s.held) ∧ (∀ r ∈ sources i, (s.readReg r).isSome) ∧
      ∀ d, reduced i = some d → s.regValue .ctx = ctxOf (s.op .p) ∧ s.regValue d < s.op .p * s.op .p) := by
  unfold preconditionFault at h
  cases ha : acquired i with
  | some r =>
    simp only [ha] at h
    split at h
    · cases h
    · rename_i hh
      refine ⟨fun q hq => ?_, fun hn => (nomatch hn)⟩
      cases hq
      simpa [State.holds] using hh
  | none =>
    simp only [ha] at h
    split at h
    · cases h
    · split at h
      · cases h
      · rename_i hn hs
        refine ⟨fun q hq => (nomatch hq), fun _ => ⟨?_, ?_, ?_⟩⟩
        · simpa [State.holds] using hn
        · simp only [Bool.not_eq_true', Bool.not_eq_false, List.all_eq_true] at hs
          exact hs
        · intro d hd
          simp only [hd, reduceFault] at h
          split at h
          · cases h
          · split at h
            · cases h
            · rename_i h1 h2
              exact ⟨by simpa using h1, by omega⟩

/-- When no precondition of R131 is violated. -/
theorem preconditionFault_eq_none {s : State} {i : Instr}
    (hacq : ∀ r, acquired i = some r → r ∉ s.held)
    (hnamed : ∀ r ∈ named i, r ∈ s.held)
    (hsrc : ∀ r ∈ sources i, (s.readReg r).isSome)
    (hred : ∀ d, reduced i = some d → s.regValue .ctx = ctxOf (s.op .p) ∧ s.regValue d < s.op .p * s.op .p) :
    preconditionFault s i = none := by
  unfold preconditionFault
  cases ha : acquired i with
  | some r => simp [State.holds, hacq r ha]
  | none =>
    have h1 : (named i).all s.holds = true := by simpa [State.holds] using hnamed
    have h2 : ((sources i).all fun r => (s.readReg r).isSome) = true := by simpa using hsrc
    simp only [h1, h2]
    cases hr : reduced i with
    | none => simp
    | some d =>
      obtain ⟨hc, hx⟩ := hred d hr
      simp [reduceFault, hc, hx]

/-! ## The one shape of a micro-op -/

/-- The effect of each micro-op on the state whose LAST_UOP is its word. -/
def uopBody : Instr → State → State
  | .acqM k => fallible (.acqM k) fun t => t.acquire (.slot k)
  | .acqCtx => fallible .acqCtx fun t => t.acquire .ctx
  | .acqRes => fallible .acqRes fun t => t.acquire .res
  | .setup => unlessZeroModulus .setup (fallible .setup fun t => t.writeReg .ctx (ctxOf (t.op .p)))
  | .mod => unlessZeroModulus .mod (fallible .mod fun t => t.writeReg (.slot 1#8) (modulo (t.op .g) (t.op .p)))
  | .copy mid => fallible (.copy mid) fun t => t.writeReg (.slot mid) (t.regValue (.slot 1#8))
  | .sqrM mid =>
    fallible (.sqrM mid) fun t => (t.writeReg (.slot mid) (t.regValue (.slot mid) * t.regValue (.slot mid))).countSqr
  | .sqrRes => fallible .sqrRes fun t => (t.writeReg .res (t.regValue .res * t.regValue .res)).countSqr
  | .mulM k b =>
    fallible (.mulM k b) fun t => (t.writeReg (.slot k) (t.regValue (.slot b) * t.regValue (.slot 1#8))).countMul
  | .mulRes j => fallible (.mulRes j) fun t => (t.writeReg .res (t.regValue .res * t.regValue (.slot j))).countMul
  | .redM j =>
    fallible (.redM j) fun t =>
      (t.writeReg (.slot j) (barrettReduce (t.regValue (.slot j)) (t.op .p) (t.regValue .ctx))).countRed
  | .redRes =>
    fallible .redRes fun t => (t.writeReg .res (barrettReduce (t.regValue .res) (t.op .p) (t.regValue .ctx))).countRed
  | .set1 => infallible fun t => t.writeReg .res (modulo 1 (t.op .p))
  | .exch => infallible State.moveResult
  | .relall => infallible State.releaseAll
  | .busRd _ | .busWr _ _ | .cmdNone _ | .cmdStart _ | .cmdClear _ | .cmdClearStart _ => id
  | .glenWr _ | .xlenWr _ | .plenWr _ | .gMemWr _ _ | .xMemWr _ _ | .pMemWr _ _ => id

/-- Every micro-op's meaning is an issue. -/
theorem exec_uop {i : Instr} (h : i.isUop = true) (s : State) : exec i s = issue i s (uopBody i) := by
  cases i <;> first | rfl | cases h

/-- An admitted micro-op whose preconditions hold completes with its own effect. -/
theorem exec_uop_completes {i : Instr} (h : i.isUop = true) {s : State} (ha : i.admitted s.w = true)
    (hp : preconditionFault s i = none) : exec i s = .next (uopBody i (s.setLastUop (uopWord i))) := by
  rw [exec_uop h, issue_of_admitted ha hp]

/-- A micro-op that answers a next state was admitted, violated nothing, and had its own effect. -/
theorem exec_uop_next {i : Instr} (h : i.isUop = true) {s t : State} (he : exec i s = .next t) :
    i.admitted s.w = true ∧ preconditionFault s i = none ∧ t = uopBody i (s.setLastUop (uopWord i)) :=
  issue_next (exec_uop h s ▸ he)

/-- Where the kernel answers `ok`, a fallible micro-op has its effect and moves on. -/
theorem fallible_answered {i : Instr} {s : State} {u : Word} {effect : State → State} (h : s.kernelAnswer = .ok) :
    fallible i effect (s.setLastUop u) = (effect (s.takeAnswer.setLastUop u)).advance := by
  rw [fallible_ok (by simp [h])]
  unfold State.takeAnswer State.setLastUop
  cases s.kernel <;> rfl

/-- The kernel's answer does not move the sequencer. -/
@[simp] theorem nextSeq_takeAnswer (s : State) : s.takeAnswer.nextSeq = s.nextSeq := by
  unfold State.takeAnswer
  cases s.kernel <;> rfl

@[simp] theorem nextSeq_setLastUop (s : State) (u : Word) : (s.setLastUop u).nextSeq = s.nextSeq := rfl

@[simp] theorem nextSeq_writeReg (s : State) (r : Reg) (v : Nat) : (s.writeReg r v).nextSeq = s.nextSeq := by
  cases r <;> rfl

@[simp] theorem nextSeq_acquire (s : State) (r : Reg) : (s.acquire r).nextSeq = s.nextSeq := by cases r <;> rfl

@[simp] theorem nextSeq_countSqr (s : State) : s.countSqr.nextSeq = s.nextSeq := rfl

@[simp] theorem nextSeq_countMul (s : State) : s.countMul.nextSeq = s.nextSeq := rfl

@[simp] theorem nextSeq_countRed (s : State) : s.countRed.nextSeq = s.nextSeq := rfl

@[simp] theorem nextSeq_moveResult (s : State) : s.moveResult.nextSeq = s.nextSeq := rfl

@[simp] theorem nextSeq_releaseAll (s : State) : s.releaseAll.nextSeq = s.nextSeq := rfl

@[simp] theorem regValue_setLastUop (s : State) (u : Word) (r : Reg) : (s.setLastUop u).regValue r = s.regValue r := by
  simp [State.regValue]

@[simp] theorem regValue_takeAnswer (s : State) (r : Reg) : s.takeAnswer.regValue r = s.regValue r := by
  simp [State.regValue]

/-- A register with a value reads as it. -/
theorem regValue_eq {s : State} {r : Reg} {v : Nat} (h : s.readReg r = some v) : s.regValue r = v := by
  simp [State.regValue, h]

/-! ## The shape of a micro-op that answers a next state -/

/-- The value that a computing micro-op puts in its destination (R122 to R128). -/
def uopValue : Instr → State → Nat
  | .setup, s => ctxOf (s.op .p)
  | .mod, s => modulo (s.op .g) (s.op .p)
  | .copy _, s => s.regValue (.slot 1#8)
  | .sqrM mid, s => s.regValue (.slot mid) * s.regValue (.slot mid)
  | .sqrRes, s => s.regValue .res * s.regValue .res
  | .mulM _ b, s => s.regValue (.slot b) * s.regValue (.slot 1#8)
  | .mulRes j, s => s.regValue .res * s.regValue (.slot j)
  | .redM j, s => barrettReduce (s.regValue (.slot j)) (s.op .p) (s.regValue .ctx)
  | .redRes, s => barrettReduce (s.regValue .res) (s.op .p) (s.regValue .ctx)
  | .set1, s => modulo 1 (s.op .p)
  | .acqM _, _ | .acqCtx, _ | .acqRes, _ | .exch, _ | .relall, _ => 0
  | .busRd _, _ | .busWr _ _, _ | .cmdNone _, _ | .cmdStart _, _ | .cmdClear _, _ | .cmdClearStart _, _ => 0
  | .glenWr _, _ | .xlenWr _, _ | .plenWr _, _ | .gMemWr _ _, _ | .xMemWr _ _, _ | .pMemWr _ _, _ => 0

/-- The counter that a micro-op advances when it succeeds (R34). -/
def counted : Instr → State → State
  | .sqrM _, s | .sqrRes, s => s.countSqr
  | .mulM _ _, s | .mulRes _, s => s.countMul
  | .redM _, s | .redRes, s => s.countRed
  | .acqM _, s | .acqCtx, s | .acqRes, s | .setup, s | .mod, s | .copy _, s | .set1, s | .exch, s | .relall, s => s
  | .busRd _, s | .busWr _ _, s | .cmdNone _, s | .cmdStart _, s | .cmdClear _, s | .cmdClearStart _, s => s
  | .glenWr _, s | .xlenWr _, s | .plenWr _, s | .gMemWr _ _, s | .xMemWr _ _, s | .pMemWr _ _, s => s

/-- What a micro-op does when it answers a next state: a failure is entered, a resource is acquired, a value is written, or
one of the three that never fail has its effect. -/
inductive UopEffect (i : Instr) (s : State) : State → Prop where
  | zeroModulus (op0 : s.op .p = 0) (who : i = .setup ∨ i = .mod) :
      UopEffect i s ((s.setLastUop (uopWord i)).enterFailure .invalidModulus (uopWord i) (destination i))
  | failed (k : FailKind) (why : kernelFailure i s.kernelAnswer = some k) (set1 : i ≠ .set1) (exch : i ≠ .exch)
      (relall : i ≠ .relall) :
      UopEffect i s ((s.takeAnswer.setLastUop (uopWord i)).enterFailure k (uopWord i) (destination i))
  | acquired (r : Reg) (which : Machine.acquired i = some r) (free : r ∉ s.held)
      (ok : kernelFailure i s.kernelAnswer = none) :
      UopEffect i s ((s.takeAnswer.setLastUop (uopWord i)).acquire r).advance
  | wrote (d : Reg) (which : destination i = some d) (set1 : i ≠ .set1) (held : d ∈ s.held)
      (op0 : i = .setup ∨ i = .mod → s.op .p ≠ 0) (ok : kernelFailure i s.kernelAnswer = none) :
      UopEffect i s (counted i ((s.takeAnswer.setLastUop (uopWord i)).writeReg d (uopValue i s))).advance
  | set1 (which : i = .set1) (held : Reg.res ∈ s.held) :
      UopEffect i s ((s.setLastUop (uopWord i)).writeReg .res (modulo 1 (s.op .p))).advance
  | exch (which : i = .exch) (held : Reg.res ∈ s.held) (value : s.res.isSome) :
      UopEffect i s (s.setLastUop (uopWord i)).moveResult.advance
  | relall (which : i = .relall) : UopEffect i s (s.setLastUop (uopWord i)).releaseAll.advance

/-- LAST_UOP and the kernel's answer do not meet. -/
theorem takeAnswer_setLastUop (s : State) (u : Word) : (s.setLastUop u).takeAnswer = s.takeAnswer.setLastUop u := by
  unfold State.takeAnswer State.setLastUop
  cases s.kernel <;> rfl

/-- A fallible micro-op fails, or has its effect. -/
theorem fallible_cases (i : Instr) (effect : State → State) (s : State) (u : Word) :
    (kernelFailure i s.kernelAnswer = none ∧
      fallible i effect (s.setLastUop u) = (effect (s.takeAnswer.setLastUop u)).advance) ∨
    ∃ k, kernelFailure i s.kernelAnswer = some k ∧
      fallible i effect (s.setLastUop u) = (s.takeAnswer.setLastUop u).enterFailure k (uopWord i) (destination i) := by
  have hk : (s.setLastUop u).kernelAnswer = s.kernelAnswer := rfl
  cases h : kernelFailure i s.kernelAnswer with
  | none => exact .inl ⟨rfl, by rw [fallible_ok (by rw [hk]; exact h), takeAnswer_setLastUop]⟩
  | some k => exact .inr ⟨k, rfl, by rw [fallible_fail (by rw [hk]; exact h), takeAnswer_setLastUop]⟩

/-- A destination is among the registers that a micro-op names. -/
theorem destination_named {i : Instr} {d : Reg} (h : destination i = some d) : acquired i = none ∧ d ∈ named i := by
  cases i <;> simp only [destination, Option.some.injEq, reduceCtorEq] at h <;> subst h <;> simp [acquired, named]

/-- Every micro-op that answers a next state does one of these. -/
theorem exec_uop_effect {i : Instr} (hi : i.isUop = true) {s t : State} (h : exec i s = .next t) : UopEffect i s t := by
  obtain ⟨-, hp, rfl⟩ := exec_uop_next hi h
  obtain ⟨hfree, hrest⟩ := preconditionFault_none hp
  have hacq : ∀ r, acquired i = some r → i ≠ .set1 → i ≠ .exch → i ≠ .relall →
      UopEffect i s (fallible i (fun t => t.acquire r) (s.setLastUop (uopWord i))) := by
    intro r hr h1 h2 h3
    rcases fallible_cases i (fun t => t.acquire r) s (uopWord i) with ⟨hk, he⟩ | ⟨k, hk, he⟩ <;> rw [he]
    · exact .acquired r hr (hfree r hr) hk
    · exact .failed k hk h1 h2 h3
  have hwr : ∀ d (effect : State → State), destination i = some d → i ≠ .set1 → i ≠ .exch → i ≠ .relall →
      (i = .setup ∨ i = .mod → s.op .p ≠ 0) →
      effect (s.takeAnswer.setLastUop (uopWord i)) =
        counted i ((s.takeAnswer.setLastUop (uopWord i)).writeReg d (uopValue i s)) →
      UopEffect i s (fallible i effect (s.setLastUop (uopWord i))) := by
    intro d effect hd h1 h2 h3 h0 heff
    rcases fallible_cases i effect s (uopWord i) with ⟨hk, he⟩ | ⟨k, hk, he⟩ <;> rw [he]
    · rw [heff]
      obtain ⟨hn, hm⟩ := destination_named hd
      exact .wrote d hd h1 ((hrest hn).1 d hm) h0 hk
    · exact .failed k hk h1 h2 h3
  have hz : ∀ d (effect : State → State), (i = .setup ∨ i = .mod) → destination i = some d →
      effect (s.takeAnswer.setLastUop (uopWord i)) =
        counted i ((s.takeAnswer.setLastUop (uopWord i)).writeReg d (uopValue i s)) →
      UopEffect i s (unlessZeroModulus i (fallible i effect) (s.setLastUop (uopWord i))) := by
    intro d effect hwho hd heff
    unfold unlessZeroModulus
    split
    · exact .zeroModulus (by simpa using ‹_›) hwho
    · rename_i h0
      exact hwr d effect hd (by rintro rfl; simp at hwho) (by rintro rfl; simp at hwho) (by rintro rfl; simp at hwho)
        (fun _ => by simpa using h0) heff
  cases i with
  | acqM k => exact hacq _ rfl (by simp) (by simp) (by simp)
  | acqCtx => exact hacq _ rfl (by simp) (by simp) (by simp)
  | acqRes => exact hacq _ rfl (by simp) (by simp) (by simp)
  | setup => exact hz .ctx _ (.inl rfl) rfl (by simp [counted, uopValue])
  | mod => exact hz (.slot 1#8) _ (.inr rfl) rfl (by simp [counted, uopValue])
  | copy mid =>
    rw [uopBody]
    exact hwr (.slot mid) _ rfl (by simp) (by simp) (by simp) (by simp) (by simp [counted, uopValue])
  | sqrM mid =>
    rw [uopBody]
    exact hwr (.slot mid) _ rfl (by simp) (by simp) (by simp) (by simp) (by simp [counted, uopValue])
  | sqrRes =>
    rw [uopBody]
    exact hwr .res _ rfl (by simp) (by simp) (by simp) (by simp) (by simp [counted, uopValue])
  | mulM k b =>
    rw [uopBody]
    exact hwr (.slot k) _ rfl (by simp) (by simp) (by simp) (by simp) (by simp [counted, uopValue])
  | mulRes j =>
    rw [uopBody]
    exact hwr .res _ rfl (by simp) (by simp) (by simp) (by simp) (by simp [counted, uopValue])
  | redM j =>
    rw [uopBody]
    exact hwr (.slot j) _ rfl (by simp) (by simp) (by simp) (by simp) (by simp [counted, uopValue])
  | redRes =>
    rw [uopBody]
    exact hwr .res _ rfl (by simp) (by simp) (by simp) (by simp) (by simp [counted, uopValue])
  | set1 =>
    have := UopEffect.set1 (i := .set1) (s := s) rfl ((hrest rfl).1 .res (by simp [named]))
    simpa [uopBody, infallible] using this
  | exch =>
    have hv := (hrest rfl).2.1 .res (by simp [sources])
    exact .exch rfl ((hrest rfl).1 .res (by simp [named])) hv
  | relall => exact .relall rfl
  | _ => cases hi

end Sys2Proof.Machine
end

