-- ==== Sys2Proof/Laws/PerInstr.lean ====
section
/-! SUPPORT. Statements made per instruction. RowMatch: the encoding of an instruction lies in its own row of
spec/opcode_table.json, `(word & mask) == match`. -/

namespace Sys2Proof.Laws.RowMatch

/-- The `match` and `mask` of an instruction's row, copied from spec/opcode_table.json. -/
def row : Instr → Nat × Nat
  | .acqM _ => (0x08000000, 0xFC03FFFF)
  | .acqCtx => (0x0C040000, 0xFFFFFFFF)
  | .acqRes => (0x0C000000, 0xFFFFFFFF)
  | .setup => (0x14060800, 0xFFFFFFFF)
  | .mod => (0x18060504, 0xFFFFFFFF)
  | .copy _ => (0x20000200, 0xFC03FFFF)
  | .sqrM _ => (0x28000000, 0xFC03FFFF)
  | .sqrRes => (0x2C000000, 0xFFFFFFFF)
  | .mulM _ _ => (0x30000001, 0xFC0201FF)
  | .mulRes _ => (0x34020000, 0xFFFFFF00)
  | .redM _ => (0x38020901, 0xFC03FFFF)
  | .redRes => (0x3C020901, 0xFFFFFFFF)
  | .set1 => (0x44020800, 0xFFFFFFFF)
  | .exch => (0x4C160000, 0xFFFFFFFF)
  | .relall => (0x50000000, 0xFFFFFFFF)
  | .busRd _ => (0x000000000000, 0x800000000000)
  | .busWr _ _ => (0x800000000000, 0x800000000000)
  | .cmdNone _ => (0x800400000000, 0xFFFC00000003)
  | .cmdStart _ => (0x800400000001, 0xFFFC00000003)
  | .cmdClear _ => (0x800400000002, 0xFFFC00000003)
  | .cmdClearStart _ => (0x800400000003, 0xFFFC00000003)
  | .glenWr _ => (0x801000000000, 0xFFFC00000000)
  | .xlenWr _ => (0x801400000000, 0xFFFC00000000)
  | .plenWr _ => (0x801800000000, 0xFFFC00000000)
  | .gMemWr _ _ => (0x900000000000, 0xF00000000000)
  | .xMemWr _ _ => (0xA00000000000, 0xF00000000000)
  | .pMemWr _ _ => (0xB00000000000, 0xF00000000000)

/-- Does an encoded instruction lie in the row with this `match` and `mask`? A 32-bit row holds micro-op words, a 48-bit row
host transactions. -/
def inRow : Encoded → Nat × Nat → Bool
  | .uop u, r => u &&& BitVec.ofNat 32 r.2 == BitVec.ofNat 32 r.1
  | .host t, r => t &&& BitVec.ofNat 48 r.2 == BitVec.ofNat 48 r.1

/-- The encoding of the instruction lies in its own row. -/
def Statement (i : Instr) : Prop := inRow (encode i) (row i) = true

/-- Masking a packed word masks its fields. -/
theorem packUop_and (op mo : BitVec 5) (a b c ma mb mc : BitVec 9) :
    packUop op a b c &&& packUop mo ma mb mc = packUop (op &&& mo) (a &&& ma) (b &&& mb) (c &&& mc) := by
  simp only [packUop, ← BitVec.and_append]

/-- Masking a packed transaction masks its fields. -/
theorem packHost_and (we mw : BitVec 1) (off mo : Offset) (data md : Word) :
    packHost we off data &&& packHost mw mo md = packHost (we &&& mw) (off &&& mo) (data &&& md) := by
  simp only [packHost, ← BitVec.and_append]

/-- A slot selector has its top bit 0. -/
theorem slot_and (k : SlotIndex) : (Sel.slot k).bits &&& 0x100#9 = 0#9 := by revert k; decide

/-- A host transaction lies in a row that masks the data away when its offset does. -/
theorem host_inRow {we mw : BitVec 1} {off mo : Offset} {data : Word} {r : Nat × Nat}
    (hmask : BitVec.ofNat 48 r.2 = packHost mw mo 0#32)
    (hmatch : BitVec.ofNat 48 r.1 = packHost (we &&& mw) (off &&& mo) 0#32) :
    inRow (.host (packHost we off data)) r = true := by
  simp only [inRow, hmask, hmatch, packHost_and, BitVec.and_zero, beq_self_eq_true]

/-- A window write has the window in `off[14:12]`. -/
theorem window_and (window : BitVec 3) (i : BitVec 10) :
    (window ++ i ++ 0#2 : BitVec 15) &&& 0x7000#15 = window ++ 0#10 ++ 0#2 := by
  have h : ((window ++ i ++ 0#2) &&& (0b111#3 ++ 0#10 ++ 0#2) : BitVec (3 + 10 + 2)) = window ++ 0#10 ++ 0#2 := by
    rw [BitVec.and_append, BitVec.and_append, BitVec.and_zero, BitVec.and_zero,
      show window &&& 0b111#3 = window by revert window; decide]
  exact h

theorem acqM (k : SlotIndex) : Statement (.acqM k) := by revert k; unfold Statement; decide

theorem acqCtx : Statement .acqCtx := by unfold Statement; decide

theorem acqRes : Statement .acqRes := by unfold Statement; decide

theorem setup : Statement .setup := by unfold Statement; decide

theorem mod : Statement .mod := by unfold Statement; decide

theorem copy (mid : SlotIndex) : Statement (.copy mid) := by revert mid; unfold Statement; decide

theorem sqrM (mid : SlotIndex) : Statement (.sqrM mid) := by revert mid; unfold Statement; decide

theorem sqrRes : Statement .sqrRes := by unfold Statement; decide

theorem mulM (k b : SlotIndex) : Statement (.mulM k b) := by
  have hmask : BitVec.ofNat 32 0xFC0201FF = packUop 0b11111#5 0x100#9 0x100#9 0x1FF#9 := by decide
  have hmatch : BitVec.ofNat 32 0x30000001 = packUop (0x06#5 &&& 0b11111#5) 0#9 0#9 ((Sel.slot 1#8).bits &&& 0x1FF#9) := by
    decide
  simp only [Statement, inRow, encode, row, hmask, hmatch, packUop_and, slot_and, beq_self_eq_true]

theorem mulRes (j : SlotIndex) : Statement (.mulRes j) := by revert j; unfold Statement; decide

theorem redM (j : SlotIndex) : Statement (.redM j) := by revert j; unfold Statement; decide

theorem redRes : Statement .redRes := by unfold Statement; decide

theorem set1 : Statement .set1 := by unfold Statement; decide

theorem exch : Statement .exch := by unfold Statement; decide

theorem relall : Statement .relall := by unfold Statement; decide

theorem busRd (off : Offset) : Statement (.busRd off) :=
  host_inRow (mw := 1#1) (mo := 0#15) (by dsimp only [row]; decide) (by rw [BitVec.and_zero]; dsimp only [row]; decide)

theorem busWr (off : Offset) (data : Word) : Statement (.busWr off data) :=
  host_inRow (mw := 1#1) (mo := 0#15) (by dsimp only [row]; decide) (by rw [BitVec.and_zero]; dsimp only [row]; decide)

theorem cmdNone (ie : Bool) : Statement (.cmdNone ie) := by cases ie <;> (unfold Statement; decide)

theorem cmdStart (ie : Bool) : Statement (.cmdStart ie) := by cases ie <;> (unfold Statement; decide)

theorem cmdClear (ie : Bool) : Statement (.cmdClear ie) := by cases ie <;> (unfold Statement; decide)

theorem cmdClearStart (ie : Bool) : Statement (.cmdClearStart ie) := by cases ie <;> (unfold Statement; decide)

theorem glenWr (data : Word) : Statement (.glenWr data) :=
  host_inRow (mw := 1#1) (mo := 0x7FFC#15) (by dsimp only [row]; decide) (by dsimp only [row]; decide)

theorem xlenWr (data : Word) : Statement (.xlenWr data) :=
  host_inRow (mw := 1#1) (mo := 0x7FFC#15) (by dsimp only [row]; decide) (by dsimp only [row]; decide)

theorem plenWr (data : Word) : Statement (.plenWr data) :=
  host_inRow (mw := 1#1) (mo := 0x7FFC#15) (by dsimp only [row]; decide) (by dsimp only [row]; decide)

theorem gMemWr (i : BitVec 10) (data : Word) : Statement (.gMemWr i data) :=
  host_inRow (mw := 1#1) (mo := 0x7000#15) (by dsimp only [row]; decide) (by rw [window_and]; dsimp only [row]; decide)

theorem xMemWr (i : BitVec 10) (data : Word) : Statement (.xMemWr i data) :=
  host_inRow (mw := 1#1) (mo := 0x7000#15) (by dsimp only [row]; decide) (by rw [window_and]; dsimp only [row]; decide)

theorem pMemWr (i : BitVec 10) (data : Word) : Statement (.pMemWr i data) :=
  host_inRow (mw := 1#1) (mo := 0x7000#15) (by dsimp only [row]; decide) (by rw [window_and]; dsimp only [row]; decide)

end Sys2Proof.Laws.RowMatch
end

