-- ==== Sys2Proof/Laws/Step.lean ====
section
/-! SUPPORT. What a step can do, said once. -/

namespace Sys2Proof.Machine

/-! ## Which step comes next -/

/-- A host transaction is no micro-op (R80). -/
theorem decodeHost_isUop (t : Transaction) : (decodeHost t).isUop = false := by
  unfold decodeHost
  split
  · rfl
  · unfold decodeWrite decodeCtrl
    repeat' split
    all_goals rfl

/-- A conditional answer is one of its two. -/
theorem ite_eq_cases {α : Type} {c : Prop} [Decidable c] {x y z : α} (h : (if c then x else y) = z) : x = z ∨ y = z := by
  split at h
  · exact .inl h
  · exact .inr h

/-- What the micro-op decoder accepts is a micro-op (R80). -/
theorem decodeUop_isUop {u : Word} {i : Instr} (h : decodeUop u = .ok i) : i.isUop = true := by
  have hA : ∀ {a b c : BitVec 9} {f : Sel → Option Instr}, (∀ s j, f s = some j → j.isUop = true) →
      decodeA a b c f = .ok i → i.isUop = true := by
    intro a b c f hf hd
    unfold decodeA at hd
    split at hd
    · split at hd
      · cases hd
      · split at hd
        · rename_i hs; cases hd; exact hf _ _ hs
        · cases hd
    · cases hd
  have hAB : ∀ {a b c : BitVec 9} {f : Sel → Sel → Option Instr}, (∀ s r j, f s r = some j → j.isUop = true) →
      decodeAB a b c f = .ok i → i.isUop = true := by
    intro a b c f hf hd
    unfold decodeAB at hd
    split at hd
    · split at hd
      · split at hd
        · rename_i hs; cases hd; exact hf _ _ _ hs
        · cases hd
      · cases hd
    · cases hd
  have hABC : ∀ {a b c : BitVec 9} {f : Sel → Sel → Sel → Option Instr},
      (∀ s r q j, f s r q = some j → j.isUop = true) → decodeABC a b c f = .ok i → i.isUop = true := by
    intro a b c f hf hd
    unfold decodeABC at hd
    split at hd
    · split at hd
      · rename_i hs; cases hd; exact hf _ _ _ _ hs
      · cases hd
    · cases hd
  unfold decodeUop at h
  generalize u.extractLsb' 27 5 = op, u.extractLsb' 18 9 = a, u.extractLsb' 9 9 = b, u.extractLsb' 0 9 = c at h
  unfold decodeFields at h
  rcases ite_eq_cases h with h | h
  · cases h
  rcases ite_eq_cases h with h | h
  · exact hA (fun s j hj => by cases s <;> simp [formAcq] at hj <;> subst hj <;> rfl) h
  rcases ite_eq_cases h with h | h
  · exact hAB (fun s r j hj => by unfold formSetup at hj; split at hj <;> simp at hj; subst hj; rfl) h
  rcases ite_eq_cases h with h | h
  · exact hABC (fun s r q j hj => by
      unfold formMod at hj; split at hj <;> simp at hj; obtain ⟨_, rfl⟩ := hj; rfl) h
  rcases ite_eq_cases h with h | h
  · exact hAB (fun s r j hj => by
      unfold formCopy at hj; split at hj <;> simp at hj; obtain ⟨_, rfl⟩ := hj; rfl) h
  rcases ite_eq_cases h with h | h
  · exact hA (fun s j hj => by cases s <;> simp [formSqr] at hj <;> subst hj <;> rfl) h
  rcases ite_eq_cases h with h | h
  · exact hABC (fun s r q j hj => by
      unfold formMul at hj; split at hj <;> simp at hj
      · obtain ⟨_, rfl⟩ := hj; rfl
      · subst hj; rfl) h
  rcases ite_eq_cases h with h | h
  · exact hABC (fun s r q j hj => by unfold formRed at hj; split at hj <;> simp at hj <;> subst hj <;> rfl) h
  rcases ite_eq_cases h with h | h
  · exact hAB (fun s r j hj => by unfold formSet1 at hj; split at hj <;> simp at hj; subst hj; rfl) h
  rcases ite_eq_cases h with h | h
  · exact hAB (fun s r j hj => by unfold formExch at hj; split at hj <;> simp at hj; subst hj; rfl) h
  rcases ite_eq_cases h with h | h
  · rcases ite_eq_cases h with h | h
    · cases h; rfl
    · cases h
  · cases h

/-- At the engine's turn the action is the engine's. -/
theorem nextAction_engine {s : State} (h : s.enginesTurn) : s.nextAction = s.engineAction := by
  unfold State.nextAction
  rcases h with h | ⟨rest, h⟩ <;> rw [h]

/-- The engine runs a micro-op only in a run or in its cleanup, and then the one its word decodes to. -/
theorem engineAction_run {s : State} {i : Instr} (h : s.engineAction = .run i) :
    s.seq.active = true ∧ decodeUop s.nextWord = .ok i := by
  unfold State.engineAction at h
  cases hs : s.seq <;> simp only [hs] at h
  · cases h
  · cases h
  · split at h
    · cases h; exact ⟨rfl, ‹_›⟩
    · cases h
  · split at h
    · cases h; exact ⟨rfl, ‹_›⟩
    · cases h
  · cases h
  · cases h

/-- A step that runs an instruction runs a host transaction, or the engine's micro-op in a run or its cleanup. -/
theorem nextAction_run {s : State} {i : Instr} (h : s.nextAction = .run i) :
    i.isUop = false ∨ (i.isUop = true ∧ s.seq.active = true ∧ decodeUop s.nextWord = .ok i) := by
  unfold State.nextAction at h
  split at h
  · cases h; exact .inl (decodeHost_isUop _)
  · cases h
  · obtain ⟨h1, h2⟩ := engineAction_run h
    exact .inr ⟨decodeUop_isUop h2, h1, h2⟩
  · obtain ⟨h1, h2⟩ := engineAction_run h
    exact .inr ⟨decodeUop_isUop h2, h1, h2⟩

/-- The Select step is taken in Select alone. -/
theorem nextAction_select {s : State} (h : s.nextAction = .select) : s.seq = .select := by
  have he : ∀ {s : State}, s.engineAction = .select → s.seq = .select := by
    intro s h
    unfold State.engineAction at h
    split at h
    · cases h
    · cases h
    · cases h
    · assumption
    · split at h <;> cases h
    · split at h <;> cases h
  unfold State.nextAction at h
  split at h
  · cases h
  · cases h
  · exact he h
  · exact he h

/-! ## What the step does -/

/-- If a step answers a next state, it is one of four: waiting, the reset event, the Select step, or an instruction. -/
theorem step_next {s t : State} (h : step s = .next t) :
    (s.nextAction = .wait ∧ t = s.takeTurn) ∨
    (s.nextAction = .reset ∧ t = s.takeTurn.onReset) ∨
    (s.nextAction = .select ∧ t = s.takeTurn.selectStep) ∨
    ∃ i, s.nextAction = .run i ∧ exec i s.takeTurn = .next t := by
  unfold step at h
  split at h
  · cases h; exact .inl ⟨‹_›, rfl⟩
  · cases h; exact .inr (.inl ⟨‹_›, rfl⟩)
  · cases h; exact .inr (.inr (.inl ⟨‹_›, rfl⟩))
  · exact .inr (.inr (.inr ⟨_, ‹_›, h⟩))
  · cases h

theorem step_wait {s : State} (h : s.nextAction = .wait) : step s = .next s.takeTurn := by simp [step, h]

theorem step_reset {s : State} (h : s.nextAction = .reset) : step s = .next s.takeTurn.onReset := by simp [step, h]

theorem step_select {s : State} (h : s.nextAction = .select) : step s = .next s.takeTurn.selectStep := by
  simp [step, h]

theorem step_run {s : State} {i : Instr} (h : s.nextAction = .run i) : step s = exec i s.takeTurn := by simp [step, h]

/-- The machine runs a first step and then the rest. -/
theorem run_succ (n : Nat) (s : State) : Sys2Proof.core.run (n + 1) s =
    match step s with
    | .next s' => Sys2Proof.core.run n s'
    | .fault r => .fault r
    | .refused r => .refused r := by
  refine (Host.Core.run.eq_2 Sys2Proof.core s n).trans ?_
  have e : Sys2Proof.core.step s = step s := rfl
  rw [e]
  cases step s <;> rfl

/-- A run of no steps is where it starts. -/
@[simp] theorem reaches_zero {s t : State} : reaches 0 s t ↔ s = t :=
  ⟨fun h => by cases h; rfl, fun h => by subst h; rfl⟩

/-- A run of one step more. -/
theorem reaches_succ {n : Nat} {s t : State} : reaches (n + 1) s t ↔ ∃ r, step s = .next r ∧ reaches n r t := by
  unfold reaches
  rw [run_succ]
  constructor
  · intro h
    split at h
    · exact ⟨_, ‹_›, h⟩
    · cases h
    · cases h
  · rintro ⟨r, hs, hr⟩
    rw [hs]
    exact hr

/-- Runs one after the other. -/
theorem reaches_add {m n : Nat} {r s t : State} (h1 : reaches m r s) (h2 : reaches n s t) : reaches (m + n) r t := by
  induction m generalizing r with
  | zero => rw [reaches_zero] at h1; subst h1; simpa using h2
  | succ m ih =>
    obtain ⟨q, hq, hr⟩ := reaches_succ.1 h1
    rw [Nat.succ_add]
    exact reaches_succ.2 ⟨q, hq, ih hr⟩

/-! ## Runs with host turns between the engine's steps -/

/-- While the block is busy, a host transaction answers a next state, which differs in IE, BUSY_WR and the last read at most
(R66, R69, R103, R104). -/
theorem exec_host_busy {i : Instr} (hi : i.isUop = false) {s : State} (hb : s.busy = true) :
    ∃ ie bw rd dr, exec i s = .next { s with ie := ie, busyWr := bw, rdata := rd, draws := dr } := by
  have hn : ∃ t, exec i s = .next t := by
    have hc : ∀ b c d, ∃ t, s.writeCtrl b c d = .next t := by
      intro b c d
      cases c <;> cases d <;>
        simp [State.writeCtrl, clear_busy (s := s.setIe b) hb, start_busy (s := s.setIe b) hb,
          start_busy (s := (s.setIe b).dropWrite) hb]
    cases i with
    | busWr off data =>
      show ∃ t, s.writeTarget (hostTarget s.params off) data = .next t
      cases hostTarget s.params off with
      | reg r => cases r <;> first | exact hc _ _ _ | exact ⟨_, rfl⟩
      | mem o k => exact ⟨_, rfl⟩
      | yMem k => exact ⟨_, rfl⟩
      | reserved => exact ⟨_, rfl⟩
    | cmdNone b => exact hc b false false
    | cmdStart b => exact hc b false true
    | cmdClear b => exact hc b true false
    | cmdClearStart b => exact hc b true true
    | busRd _ | glenWr _ | xlenWr _ | plenWr _ | gMemWr _ _ | xMemWr _ _ | pMemWr _ _ => exact ⟨_, rfl⟩
    | _ => cases hi
  obtain ⟨t, ht⟩ := hn
  rw [ht]
  cases exec_host_effect hi ht with
  | read v => cases v <;> exact ⟨_, _, _, _, rfl⟩
  | none | dropped | ie | ieDropped => exact ⟨_, _, _, _, rfl⟩
  | len a v idle | word a k v idle | ieCleared b idle | ieStarted b idle | ieRestarted b idle => simp [hb] at idle

/-- A run goes through the engine's steps, whatever the host does between them: a property of the state that says after how
many engine steps it holds, that a busy block keeps when IE, BUSY_WR, the last read or the turns change, and that each engine
step takes to the next number, holds after the engine's last step. -/
theorem reaches_engine_steps {P : Nat → State → Prop} {last : Nat}
    (busy : ∀ {e s}, e < last → P e s → s.busy = true)
    (host : ∀ {e s} ie bw rd dr turns, e < last → P e s →
      P e { s with ie := ie, busyWr := bw, rdata := rd, draws := dr, turns := turns })
    (engine : ∀ {e s}, e < last → P e s → s.enginesTurn → ∃ t, step s = .next t ∧ t.turns = s.turns.tail ∧ P (e + 1) t)
    {k e : Nat} {s : State} (hk : e + k = last) (hP : P e s) (hr : Turn.reset ∉ s.turns) :
    ∃ t, reaches (stepsFor s.turns k) s t ∧ P last t := by
  suffices H : ∀ (l : List Turn) (k e : Nat) (s : State), s.turns = l → e + k = last → P e s → Turn.reset ∉ l →
      ∃ t, reaches (stepsFor l k) s t ∧ P last t from H _ k e s rfl hk hP hr
  clear hk hP hr
  intro l
  induction l with
  | nil =>
    intro k
    induction k with
    | zero => rintro e s - rfl hP -; exact ⟨s, reaches_zero.2 rfl, hP⟩
    | succ k ih =>
      intro e s hl hk hP hr
      obtain ⟨r, hs, ht, hPr⟩ := engine (by omega) hP (.inl hl)
      obtain ⟨t, h1, h2⟩ := ih (e + 1) r (by rw [ht, hl]; rfl) (by omega) hPr hr
      refine ⟨t, ?_, h2⟩
      have h0 : stepsFor [] k = k := by cases k <;> rfl
      rw [h0] at h1
      exact reaches_succ.2 ⟨r, hs, h1⟩
  | cons a l ih =>
    intro k e s hl hk hP hr
    have ha : Turn.reset ≠ a := fun h => hr (h ▸ List.mem_cons_self)
    have hl' : Turn.reset ∉ l := fun h => hr (List.mem_cons_of_mem a h)
    cases k with
    | zero => subst hk; exact ⟨s, reaches_zero.2 rfl, hP⟩
    | succ k =>
      cases a with
      | reset => exact absurd rfl ha
      | engine =>
        obtain ⟨r, hs, ht, hPr⟩ := engine (by omega) hP (.inr ⟨l, hl⟩)
        obtain ⟨t, h1, h2⟩ := ih k (e + 1) r (by rw [ht, hl]; rfl) (by omega) hPr hl'
        exact ⟨t, reaches_succ.2 ⟨r, hs, h1⟩, h2⟩
      | host tr =>
        have hb := busy (by omega) hP
        obtain ⟨ie, bw, rd, dr, hx⟩ := exec_host_busy (decodeHost_isUop tr) (s := s.takeTurn) hb
        have hs : step s = exec (decodeHost tr) s.takeTurn := step_run (by simp [State.nextAction, hl])
        obtain ⟨t, h1, h2⟩ := ih (k + 1) e _ (by simp [hl]) hk
          (host ie bw rd dr s.turns.tail (by omega) hP) hl'
        exact ⟨t, reaches_succ.2 ⟨_, hs.trans hx, h1⟩, h2⟩

end Sys2Proof.Machine
end

