-- ==== Sys2Proof/Machine/Script.lean ====
section
/-! DEFINITION. The host's side as text and as transactions: the spelling of micro-ops and of host transactions
(spec/30_encoding.md R93, R94), and the expansions of the host pseudo-instructions (R95). No behaviour of the block depends on
them. -/

namespace Sys2Proof.Machine

/-- `WR off, data` as a transaction (R94). -/
def wr (off : Offset) (data : Word) : Transaction := packHost 1#1 off data

/-- `RD off` as a transaction (R94). -/
def rd (off : Offset) : Transaction := packHost 0#1 off 0#32

/-- The offset of an operand's length register (R95). -/
def Operand.lenOffset : Operand → Offset
  | .g => 0x0010#15
  | .x => 0x0014#15
  | .p => 0x0018#15

/-- `LDOP A, v`: write the length, then the words (R95). -/
def ldop (a : Operand) (v : Nat) : List Transaction :=
  wr a.lenOffset (BitVec.ofNat 32 (wordLength v)) ::
    (List.range (wordLength v)).map fun i => wr (BitVec.ofNat 15 (a.base + 4 * i)) (wordOf v i)

/-- `GO` (R95). -/
def go : Transaction := wr 0x0004#15 0x00000001#32

/-- `GO_IE` (R95). -/
def goIe : Transaction := wr 0x0004#15 0x00000005#32

/-- One turn of `POLL off, mask, val`: the read is repeated until the value last read agrees with `val` under `mask`
(R95). -/
def poll (off : Offset) (mask val last : Word) : Option Transaction :=
  if last &&& mask = val then none else some (rd off)

/-- One turn of `WAIT`, which ends once STATE is DONE or ERROR (R95). -/
def wait (last : Word) : Option Transaction := poll 0x0008#15 0x2#32 0x2#32 last

/-- `LDRES n`: read YLEN, then the first `n` words of Y_MEM (R95). -/
def ldres (n : Nat) : List Transaction :=
  rd 0x001C#15 :: (List.range n).map fun i => rd (BitVec.ofNat 15 (yBase + 4 * i))

/-- The spelling of a table slot, `M[k]` with a decimal index (R93). -/
def slotText (k : SlotIndex) : String := "M[" ++ toString k.toNat ++ "]"

/-- A hexadecimal number (R94; log entry 29). -/
def hexText {n : Nat} (b : BitVec n) : String := "0x" ++ b.toHex

/-- The spelling of an instruction: a micro-op as in R93, a host transaction as in R94. -/
def spelling : Instr → String
  | .acqM k => "ACQ " ++ slotText k
  | .acqCtx => "ACQ CTX"
  | .acqRes => "ACQ RES"
  | .setup => "SETUP CTX, P"
  | .mod => "MOD M[1], G, P"
  | .copy mid => "COPY " ++ slotText mid ++ ", M[1]"
  | .sqrM mid => "SQR " ++ slotText mid
  | .sqrRes => "SQR RES"
  | .mulM k b => "MUL " ++ slotText k ++ ", " ++ slotText b ++ ", M[1]"
  | .mulRes j => "MUL RES, RES, " ++ slotText j
  | .redM j => "RED " ++ slotText j ++ ", P, CTX"
  | .redRes => "RED RES, P, CTX"
  | .set1 => "SET1 RES, P"
  | .exch => "EXCH Y, RES"
  | .relall => "RELALL"
  | .busRd off => "RD " ++ hexText off
  | .busWr off data => "WR " ++ hexText off ++ ", " ++ hexText data
  | .cmdNone ie => writeText (packCtrl 0b00#2 ie)
  | .cmdStart ie => writeText (packCtrl 0b01#2 ie)
  | .cmdClear ie => writeText (packCtrl 0b10#2 ie)
  | .cmdClearStart ie => writeText (packCtrl 0b11#2 ie)
  | .glenWr data => writeText (wr 0x0010#15 data)
  | .xlenWr data => writeText (wr 0x0014#15 data)
  | .plenWr data => writeText (wr 0x0018#15 data)
  | .gMemWr i data => writeText (packMem 1#3 i data)
  | .xMemWr i data => writeText (packMem 2#3 i data)
  | .pMemWr i data => writeText (packMem 3#3 i data)
where
  writeText (t : Transaction) : String :=
    "WR " ++ hexText (t.extractLsb' 32 15) ++ ", " ++ hexText (t.extractLsb' 0 32)

end Sys2Proof.Machine
end

