-- ==== Sys2Proof/Tests/Slice0.lean ====
section
/-! SUPPORT. The model's own tests, each by evaluation: ill-formed instructions, words written out from the spec, one step of
each instruction with the numbers of spec/95_test_vectors.md, the issue program of a worked run; then, for every statement with
hypotheses, a witness that meets them, at the boundaries of its clauses. -/

namespace Sys2Proof.Tests

open Sys2Proof.Machine

/-! ## Well-formedness: each check refuses an ill-formed term -/

theorem test_wf_acq_slot : (Instr.acqM 4#8).admitted 2 = false ∧ (Instr.acqM 3#8).admitted 2 = true := by decide

theorem test_wf_acq_window : (Instr.acqM 0#8).admitted 0 = false ∧ (Instr.acqM 0#8).admitted 9 = false := by decide

theorem test_wf_copy_mid : (Instr.copy 1#8).admitted 2 = false ∧ (Instr.copy 2#8).admitted 2 = true := by decide

theorem test_wf_sqr_mid : (Instr.sqrM 3#8).admitted 2 = false ∧ (Instr.sqrM 4#8).admitted 3 = true := by decide

theorem test_wf_mul_low : (Instr.mulM 2#8 1#8).admitted 2 = false := by decide

theorem test_wf_mul_high : (Instr.mulM 4#8 3#8).admitted 2 = false := by decide

theorem test_wf_mul_source : (Instr.mulM 3#8 1#8).admitted 2 = false ∧ (Instr.mulM 3#8 2#8).admitted 2 = true := by decide

theorem test_wf_mulRes : (Instr.mulRes 0#8).admitted 2 = false ∧ (Instr.mulRes 2#8).admitted 3 = false ∧
    (Instr.mulRes 8#8).admitted 3 = false ∧ (Instr.mulRes 1#8).admitted 3 = true := by decide

theorem test_wf_red : (Instr.redM 1#8).admitted 2 = false ∧ (Instr.redM 4#8).admitted 2 = false ∧
    (Instr.redM 2#8).admitted 2 = true := by decide

theorem test_wf_mulM_anywhere : (Instr.mulM 1#8 1#8).wf = false ∧ (Instr.mulM 3#8 2#8).wf = true := by decide

theorem test_wf_busWr : (Instr.busWr 0x0006#15 0#32).wf = false ∧ (Instr.busWr 0x3FFC#15 0#32).wf = false ∧
    (Instr.busWr 0x0008#15 0#32).wf = true ∧ (Instr.busWr 0x4000#15 0#32).wf = true := by decide

/-! ## Decoding: words written out from the spec's encodings -/

/-- R163: `0x08080000 ACQ M[2]`: OP 00001, A 0 00000010, B and C 0. -/
theorem test_decode_acqM : decodeUop 0b00001_000000010_000000000_000000000#32 = .ok (.acqM 2#8) := by decide

theorem test_decode_acqCtx : decodeUop 0b00001_100000001_000000000_000000000#32 = .ok .acqCtx := by decide

theorem test_decode_acqRes : decodeUop 0b00001_100000000_000000000_000000000#32 = .ok .acqRes := by decide

theorem test_decode_setup : decodeUop 0b00010_100000001_100000100_000000000#32 = .ok .setup := by decide

theorem test_decode_mod : decodeUop 0b00011_000000001_100000010_100000100#32 = .ok .mod := by decide

theorem test_decode_copy : decodeUop 0b00100_000000100_000000001_000000000#32 = .ok (.copy 4#8) := by decide

theorem test_decode_sqrM : decodeUop 0b00101_010000000_000000000_000000000#32 = .ok (.sqrM 128#8) := by decide

theorem test_decode_sqrRes : decodeUop 0b00101_100000000_000000000_000000000#32 = .ok .sqrRes := by decide

theorem test_decode_mulM : decodeUop 0b00110_000000011_000000010_000000001#32 = .ok (.mulM 3#8 2#8) := by decide

theorem test_decode_mulRes : decodeUop 0b00110_100000000_100000000_000000011#32 = .ok (.mulRes 3#8) := by decide

theorem test_decode_redM : decodeUop 0b00111_000000010_100000100_100000001#32 = .ok (.redM 2#8) := by decide

theorem test_decode_redRes : decodeUop 0b00111_100000000_100000100_100000001#32 = .ok .redRes := by decide

theorem test_decode_set1 : decodeUop 0b01000_100000000_100000100_000000000#32 = .ok .set1 := by decide

theorem test_decode_exch : decodeUop 0b01001_100000101_100000000_000000000#32 = .ok .exch := by decide

theorem test_decode_relall : decodeUop 0b01010_000000000_000000000_000000000#32 = .ok .relall := by decide

/-- R81: `RD 0x4004`, `we` 0. -/
theorem test_decode_busRd : decodeHost 0x400400000000#48 = .busRd 0x4004#15 := by decide

/-- `WR 0x008, 0xFFFFFFFF` (vector H4), `WR 0x4000, 0` (vector H16). -/
theorem test_decode_busWr : decodeHost 0x8008FFFFFFFF#48 = .busWr 0x0008#15 0xFFFFFFFF#32 ∧
    decodeHost 0xC00000000000#48 = .busWr 0x4000#15 0#32 := by decide

/-- `WR 0x004, 0x4` (vector H12); bits 31:3 of the data are ignored (R90). -/
theorem test_decode_cmdNone : decodeHost 0x800400000004#48 = .cmdNone true ∧
    decodeHost 0x8004FFFFFFF8#48 = .cmdNone false := by decide

theorem test_decode_cmdStart : decodeHost 0x800400000001#48 = .cmdStart false := by decide

/-- `WR 0x004, 0x2`, and the same with `off[1:0]` set (R65). -/
theorem test_decode_cmdClear : decodeHost 0x800400000002#48 = .cmdClear false ∧
    decodeHost 0x800700000006#48 = .cmdClear true := by decide

theorem test_decode_cmdClearStart : decodeHost 0x800400000003#48 = .cmdClearStart false := by decide

theorem test_decode_glenWr : decodeHost 0x801000000001#48 = .glenWr 1#32 := by decide

theorem test_decode_xlenWr : decodeHost 0x801400001000#48 = .xlenWr 0x1000#32 := by decide

theorem test_decode_plenWr : decodeHost 0x801800000001#48 = .plenWr 1#32 := by decide

theorem test_decode_gMemWr : decodeHost 0x900423456789#48 = .gMemWr 1#10 0x23456789#32 := by decide

theorem test_decode_xMemWr : decodeHost 0xA0000000000D#48 = .xMemWr 0#10 13#32 := by decide

theorem test_decode_pMemWr : decodeHost 0xBFFC000001F1#48 = .pMemWr 1023#10 497#32 := by decide

/-- R89, vectors U33, U35, and each reason to reject. -/
theorem test_decode_rejects :
    decodeUop 0#32 = .rejected .notAnOperation ∧ decodeUop 0x58000000#32 = .rejected .reservedOp ∧
    decodeUop 0x2C000001#32 = .rejected .unusedField ∧ decodeUop 0x0C180000#32 = .rejected .reservedSelector ∧
    decodeUop 0x2C080000#32 = .rejected .operands := by decide

/-- Vector U34 decodes to a form that no window size admits. -/
theorem test_decode_unadmitted : decodeUop 0x30040201#32 = .ok (.mulM 1#8 1#8) ∧
    (Instr.mulM 1#8 1#8).admittingWindow = none := by decide

theorem test_decodeTableWord : decodeTableWord 32 0x34020003 = some (.mulRes 3#8) ∧
    decodeTableWord 48 0x800400000005 = some (.cmdStart true) ∧ decodeTableWord 16 0 = none := by decide

/-! ## One step of each instruction -/

/-- The state after, where the outcome is one. -/
def after (o : Host.Outcome State Fault Refusal) : Option State :=
  match o with
  | .next t => some t
  | .fault _ | .refused _ => none

/-- The fault, where the outcome is one. -/
def faultOf (o : Host.Outcome State Fault Refusal) : Option Fault :=
  match o with
  | .fault f => some f
  | .next _ | .refused _ => none

/-- Read a word at an offset. -/
def wordAt (s : State) (a : Nat) : Option Word := Memory.loadWord s.mem a

/-- A small instance, NWORDS = 2 and DIGIT_BIT = 4, with one-word operands. -/
def loaded (g x p : Word) : State :=
  { State.resetOf { nwords := 2, digitBit := 4 } with
    glen := 1#32
    xlen := 1#32
    plen := 1#32
    mem := Memory.storeWord (Memory.storeWord (Memory.storeWord [] 0x1000 g) 0x2000 x) 0x3000 p
    kernel := List.replicate 40 .ok }

/-- In a run with `w = 2`, with every resource held and the context of `op(P)` set up. -/
def running (g p : Word) : State :=
  { loaded g 13#32 p with
    seq := .run 0
    prog := [0#32, uopWord .relall]
    w := 2
    held := [.slot 0#8, .slot 1#8, .slot 2#8, .slot 3#8, .ctx, .res]
    ctx := some p.toNat }

/-- The same with values in `M[1]`, `M[2]`, `M[3]` and RES. -/
def computing (p : Word) (m1 m2 m3 r : Nat) : State :=
  { running 4#32 p with
    slots := (((Vector.replicate 256 none).set 1 (some m1)).set 2 (some m2)).set 3 (some m3)
    res := some r }

/-- The same at the start of a run, with nothing held. -/
def allocating (p : Word) : State := { running 4#32 p with held := [.slot 0#8], ctx := none }

/-- Vector U2, and vector U4: a failed ACQ holds nothing new. -/
theorem test_acqM : (after (exec (.acqM 1#8) (allocating 497#32))).map (fun t => (t.held, t.live, t.seq)) =
    some ([.slot 0#8, .slot 1#8], 2, .run 1) := by decide

theorem test_acqM_fails :
    (after (exec (.acqM 2#8) { allocating 497#32 with kernel := [.failAllocation] })).map
      (fun t => (t.held, t.errCode, t.errUop, t.seq)) = some ([.slot 0#8], 1#32, 0x08080000#32, .cleanup) := by decide

/-- Vector U3. -/
theorem test_acqM_twice : faultOf (exec (.acqM 0#8) (allocating 497#32)) = some .doubleAcquire := by decide

theorem test_acqCtx : (after (exec .acqCtx (allocating 497#32))).map (fun t => (t.held, t.lastUop)) =
    some ([.slot 0#8, .ctx], 0x0C040000#32) := by decide

theorem test_acqRes : (after (exec .acqRes (allocating 497#32))).map (fun t => (t.held, t.res)) =
    some ([.slot 0#8, .res], none) := by decide

/-- Vector U5. -/
theorem test_setup : (after (exec .setup (running 4#32 497#32))).map (fun t => (t.ctx, t.seq)) =
    some (some 497, .run 1) := by decide

/-- Vector U7: a zero modulus wins over the kernel's answer. -/
theorem test_setup_zero :
    (after (exec .setup { running 4#32 0#32 with kernel := [.failArithmetic] })).map
      (fun t => (t.errCode, t.errUop, t.seq, t.kernel)) =
    some (3#32, 0x14060800#32, .cleanup, [.failArithmetic]) := by decide

/-- Vector U8. -/
theorem test_mod : (after (exec .mod (running 1000#32 497#32))).map (fun t => t.readReg (.slot 1#8)) =
    some (some 6) := by decide

/-- Vector U12. -/
theorem test_copy : (after (exec (.copy 2#8) (computing 497#32 4 0 0 0))).map
    (fun t => (t.readReg (.slot 2#8), t.readReg (.slot 1#8))) = some (some 4, some 4) := by decide

/-- Vector U14. -/
theorem test_sqrM : (after (exec (.sqrM 2#8) (computing 497#32 4 4 0 0))).map
    (fun t => (t.readReg (.slot 2#8), t.sqrCnt)) = some (some 16, 1#32) := by decide

/-- Vector U15: the square of P - 1 is not reduced. -/
theorem test_sqrRes : (after (exec .sqrRes (computing 497#32 4 4 0 496))).map
    (fun t => (t.res, t.sqrCnt, t.mulCnt)) = some (some 246016, 1#32, 0#32) := by decide

/-- Vector U17. -/
theorem test_sqrRes_unpopulated : faultOf (exec .sqrRes (running 4#32 497#32)) = some .unpopulatedRead := by decide

/-- Vector U18. -/
theorem test_mulM : (after (exec (.mulM 3#8 2#8) (computing 497#32 4 16 0 0))).map
    (fun t => (t.readReg (.slot 3#8), t.mulCnt)) = some (some 64, 1#32) := by decide

/-- Vector U20: the destination is also a source. -/
theorem test_mulRes : (after (exec (.mulRes 1#8) (computing 497#32 4 16 64 484))).map
    (fun t => (t.res, t.mulCnt, t.redCnt)) = some (some 1936, 1#32, 0#32) := by decide

/-- Vector U23. -/
theorem test_redM : (after (exec (.redM 2#8) (computing 497#32 4 16 64 1))).map
    (fun t => (t.readReg (.slot 2#8), t.redCnt)) = some (some 16, 1#32) := by decide

/-- Vectors U24 and U25. -/
theorem test_redRes : (after (exec .redRes (computing 497#32 4 16 64 246016))).map (fun t => t.res) =
      some (some 1) ∧
    faultOf (exec .redRes (computing 497#32 4 16 64 247009)) = some .reduceDomain := by decide

/-- Vectors U26 and U27. -/
theorem test_set1 : (after (exec .set1 (running 4#32 7#32))).map (fun t => t.res) = some (some 1) ∧
    (after (exec .set1 (running 4#32 1#32))).map (fun t => t.res) = some (some 0) := by decide

/-- Vector U30. -/
theorem test_exch : (after (exec .exch (computing 497#32 4 16 64 0x099C366D68522D4E))).map
    (fun t => (wordAt t 0x4000, wordAt t 0x4004, t.ylen, t.res)) =
    some (some 0x68522D4E#32, some 0x099C366D#32, 2#32, none) := by decide

/-- Vector U29: a zero result has length 0, and every word of Y_MEM is written. -/
theorem test_exch_zero : (after (exec .exch (computing 497#32 4 16 64 0))).map
    (fun t => (wordAt t 0x4000, wordAt t 0x4004, wordAt t 0x4008, t.ylen)) =
    some (some 0#32, some 0#32, none, 0#32) := by decide

/-- Vector U31. -/
theorem test_relall : (after (exec .relall (computing 497#32 4 16 64 0))).map
    (fun t => (t.held, t.live, t.readReg (.slot 1#8), t.lastUop)) = some ([], 0, none, 0x50000000#32) := by decide

/-- Vectors H1 and H2: the spec's default instance. -/
theorem test_busRd : (after (exec (.busRd 0x0000#15) State.reset)).map (fun t => t.rdata) = some 0x4D455850#32 ∧
    (after (exec (.busRd 0x000C#15) State.reset)).map (fun t => t.rdata) = some 0x00200100#32 := by decide

/-- Vectors H6: reserved offsets read 0. -/
theorem test_busRd_reserved : (after (exec (.busRd 0x0FFC#15) State.reset)).map (fun t => t.rdata) = some 0#32 ∧
    (after (exec (.busRd 0x1400#15) State.reset)).map (fun t => (t.rdata, t.draws)) = some (0#32, 0) := by decide

/-- Vector H4: STATUS is read-only. -/
theorem test_busWr : (after (exec (.busWr 0x0008#15 0xFFFFFFFF#32) (loaded 4#32 13#32 497#32))).map
    (fun t => (t.statusWord, t.mem)) = some (0#32, (loaded 4#32 13#32 497#32).mem) := by decide

/-- Vector H13: in DONE, IE raises IRQ at once. -/
theorem test_cmdNone : (after (exec (.cmdNone true) { loaded 4#32 13#32 497#32 with seq := .done, w := 2 })).map
    (fun t => t.statusWord) = some 0x00002202#32 := by decide

/-- Vector H8. -/
theorem test_cmdStart : (after (exec (.cmdStart false) { loaded 4#32 13#32 497#32 with sqrCnt := 5#32, w := 2 })).map
    (fun t => (t.statusWord, t.sqrCnt, t.seq)) = some (1#32, 0#32, .select) := by decide

/-- Vector H17. -/
theorem test_cmdStart_unwritten :
    faultOf (exec (.cmdStart false) { loaded 4#32 13#32 497#32 with xlen := 2#32 }) = some .unwrittenOperand := by decide

/-- Vector H14. -/
theorem test_cmdClear :
    (after (exec (.cmdClear false)
      { loaded 4#32 13#32 0#32 with seq := .error, err := some .invalidModulus, errUop := 0x14060800#32, w := 2 })).map
      (fun t => (t.statusWord, t.errUop, t.seq)) = some (0x00000200#32, 0#32, .idle) := by decide

/-- Vector H10: there is no cancellation. -/
theorem test_cmdClear_busy : (after (exec (.cmdClear false) (running 4#32 497#32))).map
    (fun t => (t.seq, t.statusWord)) = some (.run 0, 0x00001201#32) := by decide

/-- Vector H15. -/
theorem test_cmdClearStart : (after (exec (.cmdClearStart false) { loaded 4#32 13#32 497#32 with seq := .done })).map
    (fun t => (t.seq, t.errCode)) = some (.select, 0#32) := by decide

/-- R31, R106: clamped to NWORDS = 2. -/
theorem test_glenWr : (after (exec (.glenWr 0x1000#32) (loaded 4#32 13#32 497#32))).map (fun t => t.glen) =
    some 2#32 := by decide

/-- Vector H5, on the spec's default instance. -/
theorem test_xlenWr : (after (exec (.xlenWr 0x1000#32) State.reset)).map (fun t => t.xlen) = some 0x100#32 := by decide

theorem test_plenWr_busy : (after (exec (.plenWr 2#32) (running 4#32 497#32))).map (fun t => (t.plen, t.busyWr)) =
    some (1#32, true) := by decide

/-- A word at `i >= GLEN` does not count (R63). -/
theorem test_gMemWr : (after (exec (.gMemWr 1#10 7#32) (loaded 4#32 13#32 497#32))).map
    (fun t => (wordAt t 0x1004, t.op .g)) = some (some 7#32, 4) := by decide

/-- Vector H11. -/
theorem test_xMemWr_busy : (after (exec (.xMemWr 0#10 5#32) (running 4#32 497#32))).map
    (fun t => (wordAt t 0x2000, t.busyWr)) = some (some 13#32, true) := by decide

/-- R107's example, and a reserved word (R61). -/
theorem test_pMemWr : (after (exec (.pMemWr 0#10 0x1F1#32) (loaded 4#32 13#32 3#32))).map (fun t => t.op .p) =
      some 497 ∧
    (after (exec (.pMemWr 2#10 1#32) (loaded 4#32 13#32 497#32))).map (fun t => (wordAt t 0x3008, t.busyWr)) =
      some (none, false) := by decide

/-! ## Placing one instruction for the next step -/

theorem test_fetch_host : (after (step (State.reset.withFetchWord 48 0x801400001000))).map (fun t => t.xlen) =
    some 0x100#32 := by decide

theorem test_fetch_uop : (after (step ((running 4#32 7#32).withFetchWord 32 0x44020800))).map
    (fun t => (t.res, t.lastUop, t.turns)) = some (some 1, 0x44020800#32, []) := by decide

theorem test_fetch_unheld : faultOf (step (State.reset.withFetchWord 32 0x3C020901)) = some .notHeld ∧
    (after (step (State.reset.withFetchWord 32 0x0C040000))).isSome = true ∧
    faultOf (step (State.reset.withFetchWord 32 0x58000000)) = some .illegalUop := by decide

/-! ## The issue program and the informative reduction -/

/-- R163 and R192: the program of `X = 13`, `w = 2`. -/
theorem test_program : (issueProgram 32 13 2).map uopWord =
    [0x08000000#32, 0x08040000#32, 0x08080000#32, 0x080C0000#32, 0x0C040000#32, 0x14060800#32, 0x18060504#32,
      0x20080200#32, 0x28080000#32, 0x380A0901#32, 0x300C0401#32, 0x380E0901#32] ++
    [0x0C000000#32, 0x44020800#32, 0x2C000000#32, 0x3C020901#32, 0x2C000000#32, 0x3C020901#32, 0x34020003#32,
      0x3C020901#32, 0x2C000000#32, 0x3C020901#32, 0x2C000000#32, 0x3C020901#32, 0x34020001#32, 0x3C020901#32,
      0x4C160000#32, 0x50000000#32] := by decide

/-- Section 2.4: the scan of `X = 499`, `w = 3`, is `s s s m7 s s s m6 s s m1 s m1`, for digits of 7 bits. -/
theorem test_scan : (runScan 7 499 3).2 =
    fullWindow 3 7 ++ fullWindow 3 6 ++ squareReduceRes ++ squareReduceRes ++ multiplyReduceRes 1 ++ squareReduceRes ++
      multiplyReduceRes 1 := by decide

/-- R210. -/
theorem test_classical : classicalReduce 32 14400 497 = 484 ∧ classicalReduce 4 246016 497 = 1 := by decide

/-- With digits of one bit the classical algorithm is not exact (log entry 30). -/
theorem test_classical_one_bit : classicalReduce 1 13118 118 ≠ 13118 % 118 := by decide

/-- R95: `LDOP P, 497` and `WAIT`. -/
theorem test_ldop : ldop .p 497 = [0x801800000001#48, 0xB000000001F1#48] ∧ ldop .x 0 = [0x801400000000#48] ∧
    wait 0x202#32 = none ∧ wait 0x201#32 = some 0x000800000000#48 := by decide

/-- R93. -/
theorem test_spelling : spelling (.mulRes 3#8) = "MUL RES, RES, M[3]" ∧ spelling .setup = "SETUP CTX, P" := by decide

/-! ## Witnesses: a state and operands that meet the hypotheses of each statement -/

/-- An outcome that is a next state, with a property of it that evaluation shows. -/
theorem next_of_after {o : Host.Outcome State Fault Refusal} {p : State → Bool} (h : (after o).any p = true) :
    ∃ t, o = .next t ∧ p t = true := by
  cases o with
  | next t => exact ⟨t, rfl, h⟩
  | fault f => cases h
  | refused r => cases h

/-- The operands are loaded, with the given answers of the kernel to come. -/
def waiting (q : Seq) (answers : List KAnswer) : State := { loaded 4#32 13#32 497#32 with seq := q, kernel := answers }

/-- START was accepted. -/
abbrev starting (answers : List KAnswer) : State := waiting .select answers

/-- The invariant holds before a run and where one starts. -/
theorem waiting_inv {q : Seq} (hq : q = .idle ∨ q = .select) (answers : List KAnswer) : (waiting q answers).Inv where
  params := by show (loaded 4#32 13#32 497#32).params.wf; decide
  memory := by show Memory.wf (loaded 4#32 13#32 497#32).mem; decide
  places := by show ∀ c ∈ (loaded 4#32 13#32 497#32).mem, inWindow { nwords := 2, digitBit := 4 } c.1; decide
  lengths := by
    show ∀ a, ((loaded 4#32 13#32 497#32).len a).toNat ≤ 2
    intro a
    cases a <;> decide
  window := .inl rfl
  heldOnce := List.nodup_nil
  valuesHeld := by
    intro r h
    cases r with
    | slot k => simp [waiting, loaded, State.resetOf, State.readReg] at h
    | res => cases h
    | ctx => cases h
  released := fun _ => rfl
  errRecorded := by rcases hq with rfl | rfl <;> rfl
  position := by
    intro i h
    rcases hq with rfl | rfl <;> cases h
  operands := fun _ => by show (loaded 4#32 13#32 497#32).operandsWritten = true; decide

theorem starting_inv (answers : List KAnswer) : (starting answers).Inv := waiting_inv (.inr rfl) answers

/-- START was accepted, and the host polls STATUS, then writes an operand word, between the engine's first steps. -/
def polled (answers : List KAnswer) : State :=
  { starting answers with turns := [.host 0x000800000000#48, .engine, .host 0xA00000000005#48, .engine] }

theorem polled_atStart (answers : List KAnswer) : (polled answers).AtStart where
  inv := { starting_inv answers with }
  atSelect := rfl
  noReset := by simp [polled]

/-- The engine's first, second and third step are the second, fourth and fifth of the machine. -/
theorem test_stepsFor : [0, 1, 2, 3].map (stepsFor (polled []).turns) = [0, 2, 4, 5] := by decide

theorem witness_ResetMeetsInvariant : Params.wf { nwords := 1, digitBit := 64 } ∧ Params.wf { nwords := 1024, digitBit := 1 } := by
  decide

theorem witness_StepKeepsInvariant : (starting []).Inv ∧ ∃ t, step (starting []) = .next t :=
  ⟨starting_inv _, _, rfl⟩

theorem witness_ResetEventStopsRun : ({ running 4#32 497#32 with turns := [.reset, .engine] } : State).turns =
    .reset :: [.engine] := rfl

theorem witness_HostTurnRunsTransaction : (State.placeHost (running 4#32 497#32) 0x000800000000#48).turns =
    .host 0x000800000000#48 :: [] := rfl

/-- One entry of the program decodes, the other does not. -/
theorem witness_EngineIssuesProgramWord :
    (running 4#32 497#32).enginesTurn ∧ (running 4#32 497#32).seq = .run 0 ∧
    (running 4#32 497#32).prog[0]? = some 0#32 ∧ decodeUop 0#32 = .rejected .notAnOperation ∧
    ({ running 4#32 497#32 with seq := .run 1, turns := [.engine] } : State).enginesTurn ∧
    (running 4#32 497#32).prog[1]? = some 0x50000000#32 ∧ decodeUop 0x50000000#32 = .ok .relall :=
  ⟨.inl rfl, rfl, rfl, by decide, .inr ⟨[], rfl⟩, by decide, by decide⟩

theorem witness_CleanupStepReleasesAll :
    ({ running 4#32 497#32 with seq := .cleanup } : State).enginesTurn ∧
    ({ running 4#32 497#32 with seq := .cleanup } : State).seq = .cleanup := ⟨.inl rfl, rfl⟩

theorem witness_SelectStepEntersRun : (starting []).enginesTurn ∧ (starting []).seq = .select := ⟨.inl rfl, rfl⟩

theorem witness_WaitingPositionsKeepState :
    State.reset.enginesTurn ∧ State.reset.seq = .idle ∧ ({ State.reset with seq := .done } : State).seq = .done ∧
    ({ State.reset with seq := .error } : State).seq = .error := ⟨.inl rfl, rfl, rfl, rfl⟩

theorem witness_DecodeInvertsEncode : takenBySpecificRow 0x7FFF#15 = false ∧ takenBySpecificRow 0x0000#15 = false ∧
    takenBySpecificRow 0x0FFC#15 = false ∧ takenBySpecificRow 0x4000#15 = false := by decide

theorem witness_EncodeInvertsDecode : decodeUop 0x34020003#32 = .ok (.mulRes 3#8) := by decide

theorem witness_ReservedOpsRejected : (0x07FFFFFF#32).extractLsb' 27 5 = 0#5 ∧
    0x0B ≤ ((0x58000000#32).extractLsb' 27 5).toNat ∧ 0x0B ≤ ((0xFFFFFFFF#32).extractLsb' 27 5).toNat := by decide

theorem witness_AcquireCompletes :
    (allocating 497#32).kernelAnswer = .ok ∧ validWindow (allocating 497#32).w = true ∧
    (3#8).toNat < 2 ^ (allocating 497#32).w ∧ Reg.slot 3#8 ∉ (allocating 497#32).held ∧
    (0#8).toNat < 2 ^ (allocating 497#32).w ∧ Reg.slot 0#8 ∉ ({ allocating 497#32 with held := [] } : State).held ∧
    Reg.ctx ∉ (allocating 497#32).held ∧ Reg.res ∉ (allocating 497#32).held := by decide

theorem witness_SetupCompletes : Reg.ctx ∈ (running 4#32 1#32).held ∧ (running 4#32 1#32).op .p ≠ 0 ∧
    (running 4#32 1#32).kernelAnswer = .ok := by decide

theorem witness_ZeroModulusFails : (running 4#32 0#32).op .p = 0 ∧ Reg.ctx ∈ (running 4#32 0#32).held ∧
    Reg.slot 1#8 ∈ (running 4#32 0#32).held := by decide

theorem witness_ModCompletes : Reg.slot 1#8 ∈ (running 1000#32 497#32).held ∧ (running 1000#32 497#32).op .p ≠ 0 ∧
    (running 1000#32 497#32).kernelAnswer = .ok := by decide

/-- One state serves the computing micro-ops: `w = 2`, with `M[1] = 4`, `M[2] = 16`, `M[3] = 64`, RES = 484. -/
def ready : State := computing 497#32 4 16 64 484

theorem witness_CopyCompletes : validWindow ready.w = true ∧ (2#8).toNat = 2 ^ (ready.w - 1) ∧
    Reg.slot 2#8 ∈ ready.held ∧ Reg.slot 1#8 ∈ ready.held ∧ ready.slots[1] = some 4 ∧ ready.kernelAnswer = .ok := by decide

theorem witness_SquareCompletes : ready.kernelAnswer = .ok ∧ validWindow ready.w = true ∧
    (2#8).toNat = 2 ^ (ready.w - 1) ∧ Reg.slot 2#8 ∈ ready.held ∧ ready.slots[(2#8).toNat] = some 16 ∧
    Reg.res ∈ ready.held ∧ ready.res = some 484 := by decide

theorem witness_MultiplyCompletes : ready.kernelAnswer = .ok ∧ validWindow ready.w = true ∧
    2 ^ (ready.w - 1) < (3#8).toNat ∧ (3#8).toNat < 2 ^ ready.w ∧ (2#8).toNat + 1 = (3#8).toNat ∧
    Reg.slot 3#8 ∈ ready.held ∧ Reg.slot 2#8 ∈ ready.held ∧ Reg.slot 1#8 ∈ ready.held ∧
    ready.slots[(2#8).toNat] = some 16 ∧ ready.slots[1] = some 4 ∧
    Reg.res ∈ ready.held ∧ ready.res = some 484 ∧ (1#8).toNat = 1 ∧ ready.slots[(1#8).toNat] = some 4 ∧
    2 ^ (ready.w - 1) ≤ (2#8).toNat ∧ ready.slots[(3#8).toNat] = some 64 := by decide

theorem witness_ReduceCompletes : ready.kernelAnswer = .ok ∧ Reg.ctx ∈ ready.held ∧
    ready.ctx = some (ctxOf (ready.op .p)) ∧ 16 < ready.op .p * ready.op .p ∧ validWindow ready.w = true ∧
    2 ^ (ready.w - 1) ≤ (2#8).toNat ∧ (3#8).toNat < 2 ^ ready.w ∧ Reg.slot 2#8 ∈ ready.held ∧
    ready.slots[(2#8).toNat] = some 16 ∧ Reg.res ∈ ready.held ∧ ready.res = some 484 ∧
    484 < ready.op .p * ready.op .p := by decide

theorem witness_Set1Completes : Reg.res ∈ (running 4#32 1#32).held ∧ (running 4#32 1#32).op .p ≠ 0 := by decide

theorem witness_ExchCompletes : Reg.res ∈ ready.held ∧ ready.res = some 484 := by decide

/-- A state whose kernel is about to fail. -/
def failing : State := { ready with kernel := [.failArithmetic] }

theorem witness_KernelFailureEntersCleanup : Instr.isUop (.redM 2#8) = true ∧ Instr.redM 2#8 ≠ .set1 ∧
    Instr.redM 2#8 ≠ .exch ∧ Instr.redM 2#8 ≠ .relall ∧ (Instr.redM 2#8).admitted failing.w = true ∧
    preconditionFault failing (.redM 2#8) = none ∧ failing.op .p ≠ 0 ∧
    kernelFailure (.redM 2#8) failing.kernelAnswer = some .arithmetic := by decide

/-- Each of the four cases of the statement is met. -/
theorem witness_FailureKindsOfEachUop :
    (∃ t, exec .sqrRes ready = .next t ∧ (t.err == none) = true) ∧
    (∃ t, exec .exch ready = .next t ∧ (t.err == none) = true) ∧
    (∃ t, exec (.acqM 3#8) { allocating 497#32 with kernel := [.failArithmetic] } = .next t ∧
      (t.err == some .allocation) = true) ∧
    (∃ t, exec (.mulRes 1#8) failing = .next t ∧ (t.err == some .arithmetic) = true) ∧
    ∃ t, exec .setup (running 4#32 0#32) = .next t ∧ (t.err == some .invalidModulus) = true :=
  ⟨next_of_after (p := fun t => t.err == none) (by decide), next_of_after (p := fun t => t.err == none) (by decide),
    next_of_after (p := fun t => t.err == some .allocation) (by decide),
    next_of_after (p := fun t => t.err == some .arithmetic) (by decide),
    next_of_after (p := fun t => t.err == some .invalidModulus) (by decide)⟩

theorem witness_PreconditionFaults :
    (Instr.acqM 0#8).admitted (allocating 497#32).w = true ∧ acquired (.acqM 0#8) = some (.slot 0#8) ∧
    Reg.slot 0#8 ∈ (allocating 497#32).held ∧
    acquired .mod = none ∧ Reg.slot 1#8 ∈ named .mod ∧ Reg.slot 1#8 ∉ (allocating 497#32).held ∧
    (∀ r ∈ named .sqrRes, r ∈ (running 4#32 497#32).held) ∧ Reg.res ∈ sources .sqrRes ∧
    (running 4#32 497#32).readReg .res = none ∧
    reduced .redRes = some .res ∧ Reg.res ∈ ready.held ∧ Reg.ctx ∈ ready.held ∧ ready.readReg .res = some 484 ∧
    ready.ctx = some 497 ∧ 497 = ctxOf (ready.op .p) ∧ 498 ≠ ctxOf (ready.op .p) ∧
    ({ ready with ctx := some 498 } : State).ctx = some 498 ∧
    (computing 497#32 4 16 64 247009).op .p * (computing 497#32 4 16 64 247009).op .p ≤ 247009 ∧
    (computing 497#32 4 16 64 247009).readReg .res = some 247009 := by decide

theorem witness_UnadmittedFormsIllegal : Instr.isUop (.mulM 1#8 1#8) = true ∧
    (Instr.mulM 1#8 1#8).admitted ready.w = false := by decide

theorem witness_UopFrame : (∃ t, exec (.mulRes 3#8) ready = .next t) ∧ (∃ t, exec .set1 ready = .next t) ∧
    (∃ t, exec (.acqM 1#8) (allocating 497#32) = .next t) ∧ ∃ t, exec (.redM 2#8) failing = .next t :=
  ⟨(next_of_after (p := fun _ => true) (by decide)).imp fun _ h => h.1,
    (next_of_after (p := fun _ => true) (by decide)).imp fun _ h => h.1,
    (next_of_after (p := fun _ => true) (by decide)).imp fun _ h => h.1,
    (next_of_after (p := fun _ => true) (by decide)).imp fun _ h => h.1⟩

/-- The first and the last byte of Y_MEM's words, and the bytes beside them, for NWORDS = 2. -/
theorem witness_ExchRelallFrame : (∃ t, exec .exch ready = .next t) ∧ (∃ t, exec .relall ready = .next t) ∧
    0x3FFF < 0x4000 ∧ 0x4000 + 4 * ready.params.nwords ≤ 0x4008 :=
  ⟨(next_of_after (p := fun _ => true) (by decide)).imp fun _ h => h.1, ⟨_, rfl⟩, by decide, by decide⟩

theorem witness_HostDatapathFrame : Instr.isUop (.busRd 0x0008#15) = false ∧
    (∃ t, exec (.busRd 0x0008#15) ready = .next t) ∧ Instr.isUop (.xMemWr 0#10 5#32) = false ∧
    ∃ t, exec (.xMemWr 0#10 5#32) ready = .next t := ⟨rfl, ⟨_, rfl⟩, rfl, ⟨_, rfl⟩⟩

/-- Word 1 of each memory is stored to, by its own row and by the general one, with the bytes just below and just above it; a
reserved word, one of Y_MEM, and any while busy is not. -/
theorem witness_HostMemoryFrame :
    (∃ t, exec (.gMemWr 1#10 7#32) (loaded 4#32 13#32 497#32) = .next t) ∧
    (loaded 4#32 13#32 497#32).storesWord (.gMemWr 1#10 7#32) .g 1 ∧
    (loaded 4#32 13#32 497#32).storesWord (.xMemWr 1#10 7#32) .x 1 ∧
    (loaded 4#32 13#32 497#32).storesWord (.pMemWr 1#10 7#32) .p 1 ∧
    (loaded 4#32 13#32 497#32).storesWord (.busWr 0x1006#15 7#32) .g 1 ∧
    (∀ o k, ¬ (loaded 4#32 13#32 497#32).storesWord (.gMemWr 2#10 7#32) o k) ∧
    (∀ o k, ¬ (loaded 4#32 13#32 497#32).storesWord (.busWr 0x4000#15 7#32) o k) ∧
    (∀ o k, ¬ ready.storesWord (.gMemWr 1#10 7#32) o k) ∧
    0x1003 < Operand.g.base + 4 * 1 ∧ Operand.g.base + 4 * 1 + 4 ≤ 0x1008 :=
  ⟨⟨_, rfl⟩, ⟨rfl, by decide, .inr ⟨1#10, 7#32, rfl, .inl ⟨rfl, rfl⟩⟩⟩,
    ⟨rfl, by decide, .inr ⟨1#10, 7#32, rfl, .inr (.inl ⟨rfl, rfl⟩)⟩⟩,
    ⟨rfl, by decide, .inr ⟨1#10, 7#32, rfl, .inr (.inr ⟨rfl, rfl⟩)⟩⟩,
    ⟨rfl, by decide, .inl ⟨_, _, rfl, by decide⟩⟩,
    (by
      rintro o k ⟨-, hk, ⟨off, d, h, -⟩ | ⟨n, d, rfl, ⟨h, -⟩ | ⟨h, -⟩ | ⟨h, -⟩⟩⟩ <;> cases h
      exact absurd hk (by decide)),
    (by
      rintro o k ⟨-, -, ⟨off, d, h, ht⟩ | ⟨n, d, -, ⟨h, -⟩ | ⟨h, -⟩ | ⟨h, -⟩⟩⟩ <;> cases h
      have hy : hostTarget (loaded 4#32 13#32 497#32).params 0x4000#15 = .yMem 0 := by decide
      rw [hy] at ht
      cases ht),
    fun o k h => absurd h.1 (by decide), by decide, by decide⟩

/-- The first and the last word of each memory, aligned and not, written and not. -/
theorem witness_HostReadsMemory : 0x1000 ∈ [0x1000, 0x2000, 0x3000, 0x4000] ∧ 0 < ready.params.nwords ∧
    1 < ready.params.nwords ∧ (0x1000#15).toNat / 4 * 4 = 0x1000 + 4 * 0 ∧ (0x2003#15).toNat / 4 * 4 = 0x2000 + 4 * 0 ∧
    (0x3007#15).toNat / 4 * 4 = 0x3000 + 4 * 1 ∧ (0x4FFF#15).toNat / 4 * 4 = 0x4000 + 4 * 1023 ∧
    Memory.loadWord ready.mem (0x1000 + 4 * 0) = some 4#32 ∧ Memory.loadWord ready.mem (0x2000 + 4 * 0) = some 13#32 ∧
    Memory.loadWord ready.mem (0x3000 + 4 * 1) = none ∧ Memory.loadWord ready.mem (0x4000 + 4 * 0) = none := by decide

theorem witness_StatusFields : ready.w < 16 ∧ ({ ready with w := 15 } : State).w < 16 := by decide

theorem witness_CmdNoneUpdatesIe : (∃ t, exec (.cmdClear true) ready = .next t) ∧
    (∃ t, exec (.cmdClearStart true) ready = .next t) ∧ (∃ t, exec (.cmdStart true) ready = .next t) ∧
    ({ ready with seq := .done } : State).seq = .done :=
  ⟨⟨_, rfl⟩, (next_of_after (p := fun _ => true) (by decide)).imp fun _ h => h.1,
    (next_of_after (p := fun _ => true) (by decide)).imp fun _ h => h.1, rfl⟩

theorem witness_InterruptLevel : (∃ t, exec (.cmdNone false) { ready with seq := .done } = .next t) ∧
    (∃ t, exec (.cmdClear true) { ready with seq := .error } = .next t) ∧
    ∃ t, exec (.cmdStart true) { ready with seq := .done } = .next t :=
  ⟨⟨_, rfl⟩, ⟨_, rfl⟩, (next_of_after (p := fun _ => true) (by decide)).imp fun _ h => h.1⟩

/-- Every boundary of the reserved ranges, for NWORDS = 2 and for NWORDS = 1024. -/
theorem witness_ReservedOffsetsInert :
    (∀ off ∈ [0x0038#15, 0x0FFF#15, 0x1008#15, 0x1FFF#15, 0x4008#15, 0x4FFF#15, 0x5000#15, 0x7FFF#15],
      reservedOffset { nwords := 2, digitBit := 4 } off) ∧
    (∀ off ∈ [0x0037#15, 0x1000#15, 0x1007#15, 0x4007#15], ¬ reservedOffset { nwords := 2, digitBit := 4 } off) ∧
    ¬ reservedOffset { nwords := 1024, digitBit := 32 } 0x4FFF#15 := by simp [reservedOffset]

/-- Every read-only register, unaligned too, and the first and the last byte of Y_MEM's words. -/
theorem witness_ReadOnlyTargetsInert :
    (∀ off ∈ [0x0000#15, 0x0003#15, 0x0008#15, 0x000C#15, 0x001C#15, 0x0020#15, 0x0024#15, 0x0028#15, 0x002C#15,
      0x0030#15, 0x0037#15, 0x4000#15, 0x4007#15], readOnlyOffset { nwords := 2, digitBit := 4 } off) ∧
    (∀ off ∈ [0x0004#15, 0x0010#15, 0x0018#15, 0x001B#15, 0x0038#15, 0x4008#15],
      ¬ readOnlyOffset { nwords := 2, digitBit := 4 } off) ∧
    readOnlyOffset { nwords := 1024, digitBit := 32 } 0x4FFF#15 := by simp [readOnlyOffset]

theorem witness_WriteLockDropsWrites : ready.busy = true ∧ (starting []).busy = true ∧
    ({ ready with seq := .cleanup } : State).busy = true ∧ (0#10).toNat < ready.params.nwords ∧
    (1#10).toNat < ready.params.nwords := by decide

theorem witness_OperandsConstantDuringRun : (starting []).Inv ∧ (starting []).busy = true ∧
    ∃ t, step (starting []) = .next t ∧ t.busy = true := ⟨starting_inv _, rfl, _, rfl, rfl⟩

theorem witness_LengthWriteClamps : (loaded 4#32 13#32 497#32).busy = false ∧ ready.busy = true ∧
    ({ ready with seq := .done } : State).busy = false ∧ State.reset.len .x = 0#32 := by decide

/-- The first and the last word of the memories, and the first and the last reserved word, for NWORDS = 2. -/
theorem witness_OperandWordWriteStores : (loaded 4#32 13#32 497#32).busy = false ∧ ready.busy = true ∧
    ((loaded 4#32 13#32 497#32).len .x).toNat ≤ (1#10).toNat ∧
    (1#10).toNat < (loaded 4#32 13#32 497#32).params.nwords ∧
    (0#10).toNat < (loaded 4#32 13#32 497#32).params.nwords ∧
    (loaded 4#32 13#32 497#32).params.nwords ≤ (2#10).toNat ∧ ready.params.nwords ≤ (1023#10).toNat ∧
    0x2000 = 0x2000 + 4 * (0#10).toNat ∧ 0x1004 = 0x1000 + 4 * (1#10).toNat ∧ 0x3004 + 4 ≤ 0x3008 := by decide

theorem witness_StartCommand : ready.busy = true ∧ (loaded 4#32 13#32 497#32).busy = false ∧
    (1 < (({ loaded 4#32 13#32 497#32 with xlen := 2#32 } : State).len .x).toNat ∧
      Memory.loadWord (loaded 4#32 13#32 497#32).mem (Operand.x.base + 4 * 1) = none) ∧
    (loaded 4#32 13#32 497#32).operandsWritten = true ∧
    (waiting .idle []).Inv ∧ (waiting .idle []).busy = false ∧
    ∀ a i, i < (State.reset.len a).toNat → Memory.loadWord State.reset.mem (a.base + 4 * i) ≠ none := by
  refine ⟨by decide, by decide, by decide, by decide, waiting_inv (.inl rfl) [], rfl, ?_⟩
  intro a i h
  cases a <;> exact absurd h (Nat.not_lt_zero i)

theorem witness_ClearCommand : ready.busy = true ∧ ({ ready with seq := .error } : State).busy = false ∧
    State.reset.busy = false := by decide

theorem witness_ClearStartCommand : ready.busy = true ∧ ({ ready with seq := .done } : State).busy = false ∧
    (1 < (({ ready with seq := .done, plen := 2#32 } : State).len .p).toNat ∧
      Memory.loadWord ready.mem (Operand.p.base + 4 * 1) = none) ∧
    ∀ a i, i < (ready.len a).toNat → Memory.loadWord ready.mem (a.base + 4 * i) ≠ none := by
  refine ⟨by decide, by decide, by decide, ?_⟩
  have h1 : ∀ a, (ready.len a).toNat = 1 := by intro a; cases a <;> decide
  intro a i h
  rw [h1, Nat.lt_one_iff] at h
  subst h
  cases a <;> decide

/-- The same operands in the spec's default instance. -/
def wide : State := { waiting .idle [] with params := Params.standard }

theorem wide_inv : wide.Inv where
  params := by decide
  memory := (waiting_inv (.inl rfl) []).memory
  places := by show ∀ c ∈ (loaded 4#32 13#32 497#32).mem, inWindow Params.standard c.1; decide
  lengths := fun a => Nat.le_trans ((waiting_inv (.inl rfl) []).lengths a) (by decide)
  window := .inl rfl
  heldOnce := List.nodup_nil
  valuesHeld := (waiting_inv (.inl rfl) []).valuesHeld
  released := fun _ => rfl
  errRecorded := rfl
  position := (waiting_inv (.inl rfl) []).position
  operands := (waiting_inv (.inl rfl) []).operands

/-- The bit lengths where the window size changes (R150). -/
theorem witness_WindowSizeSelection : wide.Inv ∧ wide.params.nwords = 256 ∧
    [0, 7, 8, 36, 37, 140, 141, 450, 451, 1303, 1304, 3529, 3530, 8192].map windowSize =
      [2, 2, 3, 3, 4, 4, 5, 5, 6, 6, 7, 7, 8, 8] := ⟨wide_inv, rfl, by decide⟩

/-- The lengths of the smallest build and of the next (R160, section 1.3). -/
theorem witness_BuildLength : 2 ≤ 2 ∧ 2 ≤ 8 ∧ (buildProgram 2).length = 12 ∧ (buildProgram 3).length = 22 := by decide

theorem witness_ProgramCounts : 1 ≤ 1 ∧ 2 = windowSize (bitLength 13) ∧ (issueProgram 1 13 2).countP isSqr = 5 := by decide

theorem witness_ProgramFormsAdmitted : 1 ≤ 32 ∧ 3 = windowSize (bitLength 255) ∧
    Instr.mulRes 7#8 ∈ issueProgram 32 255 3 := by decide

theorem witness_DigitWidthUnobservable : 1 ≤ 1 ∧ 1 ≤ 64 := by decide

/-- A run whose kernel never fails: `4^13 mod 497`, of 28 micro-ops. -/
theorem witness_RunComputesPower : (polled (List.replicate 28 .ok)).AtStart ∧
    (polled (List.replicate 28 .ok)).op .p ≠ 0 ∧
    (polled (List.replicate 28 .ok)).kernelOk (polled (List.replicate 28 .ok)).program.length :=
  ⟨polled_atStart _, by decide, by unfold State.kernelOk; decide⟩

theorem witness_BuildFillsTable : (polled (List.replicate 12 .ok)).AtStart ∧
    2 = windowSize (bitLength ((polled (List.replicate 12 .ok)).op .x)) ∧
    (polled (List.replicate 12 .ok)).op .p ≠ 0 ∧
    (polled (List.replicate 12 .ok)).kernelOk (buildProgram 2).length :=
  ⟨polled_atStart _, by decide, by decide, by unfold State.kernelOk; decide⟩

/-- A run that ends in Done and one that ends in Error are possible from here. -/
theorem witness_RunEndsWithoutFault : (polled []).AtStart ∧ (polled [.ok, .failAllocation]).AtStart :=
  ⟨polled_atStart _, polled_atStart _⟩

/-- Select, a failed `ACQ M[0]`, and the cleanup, with the host's two turns among them: the block is busy until then. -/
theorem witness_FailedRunLeavesOutput : (polled [.failAllocation]).AtStart ∧
    (∃ t, reaches 5 (polled [.failAllocation]) t ∧ (t.seq == .error) = true) ∧
    ∀ m r, m < 5 → reaches m (polled [.failAllocation]) r → r.busy = true ∨ r.enginesTurn := by
  refine ⟨polled_atStart _, next_of_after (p := fun t => t.seq == .error) (by decide), fun m r hm hr => .inl ?_⟩
  have h : ∀ m : Fin 5, (after (Sys2Proof.core.run m (polled [.failAllocation]))).all (·.busy) = true := by decide
  have := h ⟨m, hm⟩
  rw [show Sys2Proof.core.run m (polled [.failAllocation]) = .next r from hr] at this
  exact this

theorem witness_OutputChangesOnlyByExch : (∃ t, step (starting []) = .next t) ∧
    (0x4000 ≤ 0x4007 ∧ 0x4007 < 0x4000 + 4 * (starting []).params.nwords) := ⟨⟨_, rfl⟩, by decide⟩

theorem witness_ClassicalBarrettAgrees : 2 ≤ 2 ∧ 1 ≤ 497 ∧ 246016 < 497 * 497 := by decide

end Sys2Proof.Tests
end

/-! ## The reset state and the frame of host transactions (10_state.md) -/

namespace Sys2Proof.Machine

/-! ### Host transactions and the datapath -/

/-- No host step of R100 to R107 writes a register of the datapath (R20). -/
theorem HostEffect.readReg_eq {s t : State} (h : HostEffect s t) (r : Reg) : t.readReg r = s.readReg r := by
  cases h with
  | none => rfl
  | word => exact readReg_congr rfl rfl rfl r
  | read | dropped | len | ie | ieDropped | ieCleared | ieStarted | ieRestarted => simp

/-- No host step writes the held set, YLEN, the program, the scan registers or the parameters, and none takes a turn or an
answer of the kernel (R28, R32, R33, R36, R38). -/
theorem HostEffect.engine_fields_eq {s t : State} (h : HostEffect s t) :
    t.held = s.held ∧ t.ylen = s.ylen ∧ t.prog = s.prog ∧ t.scan = s.scan ∧ t.params = s.params ∧
      t.kernel = s.kernel ∧ t.turns = s.turns := by
  cases h with
  | none | word => exact ⟨rfl, rfl, rfl, rfl, rfl, rfl, rfl⟩
  | read | dropped | len | ie | ieDropped | ieCleared | ieStarted | ieRestarted => simp

/-- Settles O32: a host transaction does one of the steps of `HostEffect`, and none of them reaches the datapath. -/
theorem hostDatapathFrame : Obligations.HostDatapathFrame := by
  intro i s t hi h
  have effect : HostEffect s t := exec_host_effect hi h
  exact ⟨effect.readReg_eq, effect.engine_fields_eq⟩

/-! ### The reset state -/

@[simp] theorem readReg_resetOf (p : Params) (r : Reg) : (State.resetOf p).readReg r = none := by
  cases r <;> simp [State.readReg, State.resetOf]

@[simp] theorem len_resetOf (p : Params) (a : Operand) : (State.resetOf p).len a = 0#32 := by cases a <;> rfl

@[simp] theorem loadWord_nil (a : Nat) : Memory.loadWord [] a = none := rfl

/-- No interrupt is raised before a run has finished, whatever IE is (R233). -/
theorem irq_eq_false_of_not_finished {s : State} (h : s.finished = false) : s.irq = false := by
  simp [State.irq, h]

/-- STATUS reads 0 in Idle when no failure, window size or dropped write is recorded (R108). -/
theorem statusWord_eq_zero {s : State} (hseq : s.seq = .idle) (herr : s.err = none) (hw : s.w = 0)
    (hbusyWr : s.busyWr = false) : s.statusWord = 0#32 := by
  have hirq : s.irq = false := irq_eq_false_of_not_finished (by simp [State.finished, hseq])
  simp [State.statusWord, State.errCode, Seq.stateCode, flagWord, hseq, herr, hw, hbusyWr, hirq]

/-- Settles O1: each row of the reset table is a field of `State.resetOf`, or a value computed from such fields. -/
theorem resetValues : Obligations.ResetValues := by
  refine ⟨rfl, fun p => ⟨State.resetOf p, rfl, ?_⟩⟩
  have hirq : (State.resetOf p).irq = false := irq_eq_false_of_not_finished rfl
  have hstatus : (State.resetOf p).statusWord = 0#32 := statusWord_eq_zero rfl rfl rfl rfl
  exact ⟨rfl, rfl, rfl, rfl, rfl, rfl, rfl, rfl, hirq, hstatus, rfl, rfl, rfl, rfl, rfl, rfl, rfl, rfl, rfl, rfl, rfl,
    readReg_resetOf p, loadWord_nil⟩

/-- The reset state of an instance with its parameters in range meets the invariant: memory and the held set are empty, no
register has a value, and the position is Idle (R43). -/
theorem resetOf_inv {p : Params} (hp : p.wf) : (State.resetOf p).Inv where
  params := hp
  memory := List.Pairwise.nil
  places := fun _ hc => absurd hc List.not_mem_nil
  lengths := fun a => by simp
  window := .inl rfl
  heldOnce := List.nodup_nil
  valuesHeld := fun r hr => by simp at hr
  released := fun _ => rfl
  errRecorded := rfl
  position := fun _ hrun => Seq.noConfusion hrun
  operands := fun hbusy => Bool.noConfusion hbusy

/-- Settles O2: the default parameters are in their ranges, and `resetOf_inv` holds for all that are. -/
theorem resetMeetsInvariant : Obligations.ResetMeetsInvariant :=
  ⟨resetOf_inv (p := Params.standard) (by decide), fun _ hp => resetOf_inv hp⟩

end Sys2Proof.Machine

/-! ## The invariant under every step (20_memory.md) -/

namespace Sys2Proof.Machine

variable {s t : State} {i : Instr}

/-! ### The places of memory -/

/-- An offset lies in an operand window exactly when one of the four windows has it (R61, R62). -/
theorem inWindow_iff {p : Params} {a : Nat} :
    inWindow p a = true ↔ ∃ base ∈ windowBases, base ≤ a ∧ a < base + 4 * p.nwords := by
  simp [inWindow]

theorem Operand.base_mem_windowBases (o : Operand) : o.base ∈ windowBases := by cases o <;> decide

theorem yBase_mem_windowBases : yBase ∈ windowBases := by decide

/-- Word `k < 1024` of an operand memory lies below Y_MEM (R61). -/
theorem Operand.word_below_yBase (o : Operand) {k : Nat} (hk : k < 1024) : o.base + 4 * k + 4 ≤ yBase := by
  cases o <;> simp only [Operand.base, yBase] <;> omega

/-- Whether the operands are written depends on the lengths and on the words below them (R109). -/
theorem operandsWritten_congr (hlen : ∀ a, t.len a = s.len a)
    (hword : ∀ (a : Operand) k, k < (s.len a).toNat →
      Memory.loadWord t.mem (a.base + 4 * k) = Memory.loadWord s.mem (a.base + 4 * k)) :
    t.operandsWritten = s.operandsWritten := by
  have written : ∀ a : Operand, Memory.allWritten t.mem a.base (t.len a).toNat =
      Memory.allWritten s.mem a.base (s.len a).toNat := fun a => by
    rw [hlen a]; exact allWritten_congr (hword a)
  simp only [State.operandsWritten, written]

/-! ### Updates that the invariant does not look at -/

theorem State.Inv.takeTurn (h : s.Inv) : s.takeTurn.Inv := { h with }

theorem State.Inv.setIe (h : s.Inv) (b : Bool) : (s.setIe b).Inv := { h with }

theorem State.Inv.dropWrite (h : s.Inv) : s.dropWrite.Inv := { h with }

theorem State.Inv.setLastUop (h : s.Inv) (u : Word) : (s.setLastUop u).Inv := { h with }

theorem State.Inv.countSqr (h : s.Inv) : s.countSqr.Inv := { h with }

theorem State.Inv.countMul (h : s.Inv) : s.countMul.Inv := { h with }

theorem State.Inv.countRed (h : s.Inv) : s.countRed.Inv := { h with }

theorem State.Inv.busRead (h : s.Inv) (v : Option Word) : (s.busRead v).Inv := by
  cases v with
  | some v => exact { h with }
  | none => exact { h with }

theorem State.Inv.takeAnswer (h : s.Inv) : s.takeAnswer.Inv := by
  unfold State.takeAnswer
  split
  · exact { h with }
  · exact { h with }

/-- A micro-op advances one counter or none (R34). -/
theorem counted_cases (i : Instr) (s : State) :
    counted i s = s ∨ counted i s = s.countSqr ∨ counted i s = s.countMul ∨ counted i s = s.countRed := by
  cases i <;> simp [counted]

theorem State.Inv.counted (h : s.Inv) (i : Instr) : (counted i s).Inv := by
  rcases counted_cases i s with e | e | e | e <;> rw [e]
  exacts [h, h.countSqr, h.countMul, h.countRed]

/-! ### Host writes while no run is on -/

/-- The positions at which resources may be held are busy ones (R36). -/
theorem busy_of_active (active : s.seq.active = true) : s.busy = true := by
  cases hs : s.seq with
  | run | cleanup => simp [State.busy, hs]
  | idle | select | done | error => simp [Seq.active, hs] at active

/-- Outside a busy state nothing is held (R33). -/
theorem State.Inv.held_eq_nil (h : s.Inv) (idle : s.busy = false) : s.held = [] :=
  h.released (Bool.eq_false_iff.2 fun active => by simp [busy_of_active active] at idle)

theorem State.Inv.setLen (h : s.Inv) (idle : s.busy = false) (a : Operand) {v : Word}
    (legal : v.toNat ≤ s.params.nwords) : (s.setLen a v).Inv := by
  have lengths : ∀ b, ((s.setLen a v).len b).toNat ≤ s.params.nwords := by
    intro b
    rw [len_setLen]
    split
    · exact legal
    · exact h.lengths b
  have notBusy : (s.setLen a v).busy = false := by rw [busy_congr (setLen_seq s a v), idle]
  have operands : (s.setLen a v).busy = true → (s.setLen a v).operandsWritten = true := by simp [notBusy]
  cases a <;> exact { h with lengths, operands }

/-- A store of a word of an operand memory, while no run is on, keeps the invariant (R62, R69). -/
theorem State.Inv.storeOperand (h : s.Inv) (idle : s.busy = false) (a : Operand) {k : Nat} (v : Word)
    (fits : k < s.params.nwords) :
    State.Inv { s with mem := Memory.storeWord s.mem (a.base + 4 * k) v } where
  __ := h
  memory := storeWord_wf h.memory _ _
  places := by
    intro c hc
    rcases mem_storeWord hc with hc | hc
    · exact h.places c hc
    · exact inWindow_iff.2 ⟨a.base, a.base_mem_windowBases, by omega, by show _ < _ + 4 * s.params.nwords; omega⟩
  operands := fun busy => absurd (idle.symm.trans busy) Bool.false_ne_true

theorem State.Inv.acknowledge (h : s.Inv) (idle : s.busy = false) : s.acknowledge.Inv where
  __ := h
  released := fun _ => h.held_eq_nil idle
  errRecorded := rfl
  position := nofun
  operands := nofun

theorem State.Inv.beginRun (h : s.Inv) (idle : s.busy = false) (written : s.operandsWritten = true) :
    s.beginRun.Inv where
  __ := h
  window := .inl rfl
  released := fun _ => h.held_eq_nil idle
  errRecorded := rfl
  position := nofun
  operands := fun _ => written

/-- Every host step of R100 to R107 keeps the invariant. -/
theorem HostEffect.inv (effect : HostEffect s t) (h : s.Inv) : t.Inv := by
  cases effect with
  | none => exact h
  | read v => exact h.busRead v
  | dropped => exact h.dropWrite
  | len a v idle => exact h.setLen idle a (clampedLength_le v _)
  | word a k v idle fits => exact h.storeOperand idle a v fits
  | ie b => exact h.setIe b
  | ieDropped b _ => exact (h.setIe b).dropWrite
  | ieCleared b idle => exact (h.setIe b).acknowledge idle
  | ieStarted b idle written => exact (h.setIe b).beginRun idle written
  | ieRestarted b idle written => exact ((h.setIe b).acknowledge idle).beginRun rfl written

/-! ### The reset event and the Select step -/

theorem State.Inv.onReset (h : s.Inv) : s.onReset.Inv := { resetOf_inv h.params with }

theorem windowSize_valid (b : Nat) : validWindow (windowSize b) = true := by
  unfold windowSize
  repeat' split
  all_goals decide

/-- Every issue program ends with RELALL (R184, R186). -/
theorem issueProgram_getLast? (digitBit x w : Nat) : (issueProgram digitBit x w).getLast? = some .relall := by
  simp [issueProgram, finishPhase]

theorem State.Inv.selectStep (h : s.Inv) (atSelect : s.seq = .select) : s.selectStep.Inv where
  __ := h
  window := .inr (windowSize_valid _)
  released := nofun
  errRecorded := by
    have := h.errRecorded
    rw [atSelect] at this
    exact this
  position := by
    have last : s.selectStep.prog.getLast? = some (uopWord .relall) := by
      simp [issueProgram_getLast?]
    rintro _ ⟨⟩
    refine ⟨List.length_pos_iff.2 fun hnil => ?_, last⟩
    rw [hnil] at last
    cases last
  operands := fun _ => h.operands (by simp [State.busy, atSelect])

/-! ### Micro-ops -/

/-- Writing a register that is held, or taking a value away, keeps the invariant (R22). -/
theorem State.Inv.putReg (h : s.Inv) (r : Reg) (v : Option Nat) (held : v.isSome → r ∈ s.held) :
    (s.putReg r v).Inv := by
  have valuesHeld : ∀ q, ((s.putReg r v).readReg q).isSome → q ∈ s.held := by
    intro q hq
    rw [readReg_putReg] at hq
    split at hq
    · exact ‹q = r› ▸ held hq
    · exact h.valuesHeld q hq
  cases r <;> exact { h with valuesHeld }

theorem State.Inv.writeReg (h : s.Inv) {r : Reg} (v : Nat) (held : r ∈ s.held) : (s.writeReg r v).Inv :=
  h.putReg r (some v) fun _ => held

theorem State.Inv.depopulate (h : s.Inv) (r : Reg) : (s.depopulate r).Inv := h.putReg r none nofun

theorem State.Inv.acquire (h : s.Inv) (active : s.seq.active = true) {r : Reg} (free : r ∉ s.held) :
    (s.acquire r).Inv where
  __ := h.depopulate r
  heldOnce := by
    rw [acquire_held]
    exact List.nodup_append'.2 ⟨h.heldOnce, by simp, by simpa using free⟩
  valuesHeld := fun q hq => by
    rw [acquire_held]
    exact List.mem_append_left _ (by simpa using (h.depopulate r).valuesHeld q hq)
  released := by simp [active]

theorem State.Inv.releaseAll (h : s.Inv) : s.releaseAll.Inv where
  __ := h
  heldOnce := List.nodup_nil
  valuesHeld := by simp
  released := fun _ => rfl

/-- Storing the result in Y_MEM keeps the invariant: the operand words lie below it (R61, R62). -/
theorem State.Inv.moveResult (h : s.Inv) : s.moveResult.Inv where
  __ := h
  memory := storeWords_wf h.memory _ _ _
  places := by
    intro c hc
    rcases mem_storeWords hc with hc | hc
    · exact h.places c hc
    · exact inWindow_iff.2 ⟨yBase, yBase_mem_windowBases, hc⟩
  valuesHeld := by
    intro q hq
    rw [readReg_moveResult] at hq
    split at hq
    · simp at hq
    · exact h.valuesHeld q hq
  operands := by
    intro busy
    have same : s.moveResult.operandsWritten = s.operandsWritten := by
      refine operandsWritten_congr (len_congr rfl rfl rfl) fun a k hk => ?_
      have legal := h.lengths a
      obtain ⟨_, hn, _⟩ := h.params
      exact loadWord_storeWords_other _ _ _ (.inl (a.word_below_yBase (by omega)))
    rw [same]
    exact h.operands busy

/-- A failure goes to Cleanup, where resources may be held and ERR is recorded (R226). -/
theorem State.Inv.enterFailure (h : s.Inv) (busy : s.busy = true) (k : FailKind) (u : Word) (d : Option Reg) :
    (s.enterFailure k u d).Inv := by
  have ofInv : ∀ {r : State}, r.Inv → r.operandsWritten = true →
      State.Inv { r with err := some k, errUop := u, seq := .cleanup } := fun h written =>
    { h with released := nofun, errRecorded := rfl, position := nofun, operands := fun _ => written }
  cases d with
  | none => exact ofInv h (h.operands busy)
  | some r => exact ofInv (h.depopulate r) ((h.depopulate r).operands (by rw [busy_congr (depopulate_seq s r), busy]))

/-- From a position of a run or its cleanup the sequencer goes on within the program, or leaves the run and keeps whether it
failed (R37, R227). -/
theorem nextSeq_cases (active : s.seq.active = true) :
    (∃ n, s.seq = .run n ∧ n + 1 < s.prog.length ∧ s.nextSeq = .run (n + 1)) ∨
    (∃ n, s.seq = .run n ∧ s.prog.length ≤ n + 1 ∧ s.nextSeq = .done) ∨
    (s.seq = .cleanup ∧ s.nextSeq = .error) := by
  unfold State.nextSeq
  cases hs : s.seq with
  | run n =>
    by_cases hn : n + 1 < s.prog.length
    · simp [hn]
    · simp [hn]; omega
  | cleanup => simp
  | idle | select | done | error => simp [hs, Seq.active] at active

/-- Moving past a micro-op keeps the invariant when nothing is held on leaving the run. -/
theorem State.Inv.advance (h : s.Inv) (active : s.seq.active = true)
    (released : s.nextSeq.active = false → s.held = []) : s.advance.Inv where
  __ := h
  released := released
  errRecorded := by
    have recorded := h.errRecorded
    rcases nextSeq_cases active with ⟨n, hs, _, hn⟩ | ⟨n, hs, _, hn⟩ | ⟨hs, hn⟩ <;>
      simpa [hn, hs, Seq.failed] using recorded
  position := by
    rcases nextSeq_cases active with ⟨n, hs, hlt, hn⟩ | ⟨n, hs, _, hn⟩ | ⟨hs, hn⟩
    · intro m hm
      cases hn.symm.trans hm
      exact ⟨hlt, (h.position n hs).2⟩
    · exact fun m hm => nomatch hn.symm.trans hm
    · exact fun m hm => nomatch hn.symm.trans hm
  operands := fun _ => h.operands (busy_of_active active)

@[simp] theorem decodeUop_relall : decodeUop (uopWord .relall) = .ok .relall := by decide

/-- Only RELALL is issued at the last position of a run and in its cleanup: after any other micro-op the run goes on
(R186, R227). -/
theorem State.Inv.nextSeq_active (h : s.Inv) (active : s.seq.active = true) (word : decodeUop s.nextWord = .ok i)
    (other : i ≠ .relall) : s.nextSeq.active = true := by
  by_contra leaves
  have atLast : s.nextWord = uopWord .relall := by
    rcases nextSeq_cases active with ⟨n, _, _, hn⟩ | ⟨n, hs, hle, _⟩ | ⟨hs, _⟩
    · exact absurd (by rw [hn]; rfl) leaves
    · obtain ⟨hlt, hlast⟩ := h.position n hs
      have hn : s.prog.length - 1 = n := by omega
      rw [List.getLast?_eq_getElem?, hn] at hlast
      simp [State.nextWord, hs, hlast]
    · simp [State.nextWord, hs]
  rw [atLast, decodeUop_relall] at word
  cases word
  exact other rfl

@[simp] theorem counted_seq (i : Instr) (s : State) : (counted i s).seq = s.seq := by cases i <;> rfl

@[simp] theorem nextSeq_counted (i : Instr) (s : State) : (counted i s).nextSeq = s.nextSeq := by cases i <;> rfl

/-- Every micro-op of a run and of its cleanup keeps the invariant, if the run goes on after all but RELALL. -/
theorem UopEffect.inv (effect : UopEffect i s t) (h : s.Inv) (active : s.seq.active = true)
    (goesOn : i ≠ .relall → s.nextSeq.active = true) : t.Inv := by
  have hword : (s.setLastUop (uopWord i)).Inv := h.setLastUop _
  have hasked : (s.takeAnswer.setLastUop (uopWord i)).Inv := h.takeAnswer.setLastUop _
  cases effect with
  | zeroModulus => exact hword.enterFailure (busy_of_active active) _ _ _
  | failed => exact hasked.enterFailure (busy_of_active (by simpa using active)) _ _ _
  | acquired r which free =>
    have going := goesOn (by rintro rfl; cases which)
    exact (hasked.acquire (by simpa using active) (by simpa using free)).advance (by simpa using active) (by simp [going])
  | wrote d which set1 held =>
    have going := goesOn (by rintro rfl; cases which)
    exact ((hasked.writeReg _ (by simpa using held)).counted i).advance (by simpa using active) (by simp [going])
  | set1 which held =>
    have going := goesOn (by rintro rfl; cases which)
    exact (hword.writeReg _ (by simpa using held)).advance (by simpa using active) (by simp [going])
  | exch which =>
    have going := goesOn (by rintro rfl; cases which)
    exact hword.moveResult.advance active (by simp [going])
  | relall => exact hword.releaseAll.advance active fun _ => rfl

/-- Settles O3: waiting, the reset event, the Select step, each host step and each micro-op keep the invariant. -/
theorem stepKeepsInvariant : Obligations.StepKeepsInvariant := by
  intro s t h hstep
  rcases step_next hstep with ⟨_, rfl⟩ | ⟨_, rfl⟩ | ⟨hselect, rfl⟩ | ⟨i, hrun, hexec⟩
  · exact h.takeTurn
  · exact h.takeTurn.onReset
  · exact h.takeTurn.selectStep (nextAction_select (s := s) hselect)
  · rcases nextAction_run hrun with hhost | ⟨huop, active, word⟩
    · exact (exec_host_effect hhost hexec).inv h.takeTurn
    · exact (exec_uop_effect huop hexec).inv h.takeTurn active (h.nextSeq_active active word)

end Sys2Proof.Machine

/-! ## Host offsets and host writes (20_memory.md) -/

namespace Sys2Proof.Machine

/-! ### The fields of an offset (R61, R65) -/

/-- The word index of an offset over the whole host space, as a number. -/
theorem offset_index_eq_iff {off : Offset} {n : BitVec 13} : off.extractLsb' 2 13 = n ↔ off.toNat / 4 = n.toNat := by
  rw [← BitVec.toNat_inj, BitVec.extractLsb'_toNat, Nat.shiftRight_eq_div_pow, Nat.mod_eq_of_lt (by omega)]

/-- The window of an offset, as a number. -/
theorem offset_window_eq_iff {off : Offset} {n : BitVec 3} : off.extractLsb' 12 3 = n ↔ off.toNat / 4096 = n.toNat := by
  rw [← BitVec.toNat_inj, BitVec.extractLsb'_toNat, Nat.shiftRight_eq_div_pow, Nat.mod_eq_of_lt (by omega)]

/-- The word index of an offset within its window, as a number. -/
theorem offset_word_toNat (off : Offset) : (off.extractLsb' 2 10).toNat = off.toNat / 4 % 1024 := by
  rw [BitVec.extractLsb'_toNat, Nat.shiftRight_eq_div_pow]

/-- A field of an offset above the two low bits is that of the aligned offset. -/
theorem extractLsb'_aligned (off : Offset) {start len : Nat} (above : 2 ≤ start) (inside : start + len ≤ 15) :
    (off &&& 0x7FFC#15).extractLsb' start len = off.extractLsb' start len := by
  have maskBit : ∀ k < 15, 2 ≤ k → (0x7FFC#15).getLsbD k = true := by decide
  ext k hk
  simp [BitVec.getElem_extractLsb', maskBit (start + k) (by omega) (by omega)]

/-! ### The host space map by regions (R61) -/

variable {p : Params} {off : Offset}

/-- The register region, registers and reserved offsets (R27). -/
theorem hostTarget_low (region : off.toNat < 0x1000) :
    hostTarget p off = ((hostRegAt (off.toNat / 4)).map Target.reg).getD .reserved := by
  have window : off.toNat / 4096 = 0 := by omega
  have word : off.toNat / 4 % 1024 = off.toNat / 4 := by omega
  simp only [hostTarget, offset_window_eq_iff, offset_word_toNat, window, word]
  cases hostRegAt (off.toNat / 4) <;> rfl

theorem hostTarget_register {r : HostReg} (region : off.toNat < 0x1000) (reg : hostRegAt (off.toNat / 4) = some r) :
    hostTarget p off = .reg r := by
  simp [hostTarget_low region, reg]

theorem hostTarget_operand (a : Operand) (window : off.toNat / 4096 * 4096 = a.base) :
    hostTarget p off = if p.nwords ≤ (off.extractLsb' 2 10).toNat then .reserved
      else .mem a (off.extractLsb' 2 10).toNat := by
  have number : off.toNat / 4096 = a.base / 4096 := by omega
  cases a <;> simp [hostTarget, offset_window_eq_iff, number, Operand.base]

theorem hostTarget_yMem (window : off.toNat / 4096 = 4) :
    hostTarget p off = if p.nwords ≤ (off.extractLsb' 2 10).toNat then .reserved
      else .yMem (off.extractLsb' 2 10).toNat := by
  simp [hostTarget, offset_window_eq_iff, window]

theorem hostTarget_above (region : 0x5000 ≤ off.toNat) : hostTarget p off = .reserved := by
  have noWindow : ∀ n < 5, off.toNat / 4096 ≠ n := by omega
  simp [hostTarget, offset_window_eq_iff, noWindow]

/-- A word `k >= NWORDS` of a window is reserved. -/
theorem hostTarget_beyond (region : 0x1000 ≤ off.toNat) (beyond : p.nwords ≤ off.toNat % 0x1000 / 4) :
    hostTarget p off = .reserved := by
  have window : off.toNat / 4096 ≠ (0#3).toNat := by simp; omega
  have word : p.nwords ≤ off.toNat / 4 % 1024 := by omega
  simp only [hostTarget, offset_window_eq_iff, offset_word_toNat]
  rw [if_neg window, if_pos word]

theorem hostTarget_aligned (p : Params) (off : Offset) : hostTarget p (off &&& 0x7FFC#15) = hostTarget p off := by
  simp [hostTarget, extractLsb'_aligned]

theorem hostRegAt_eq_none {n : Nat} (h : 14 ≤ n) : hostRegAt n = none := by
  obtain ⟨m, rfl⟩ := Nat.exists_eq_add_of_le' h
  rfl

theorem hostTarget_reservedOffset (h : reservedOffset p off) : hostTarget p off = .reserved := by
  rcases h with ⟨low, region⟩ | region | ⟨region, _, beyond⟩
  · simp [hostTarget_low region, hostRegAt_eq_none (n := off.toNat / 4) (by omega)]
  · exact hostTarget_above region
  · exact hostTarget_beyond region beyond

/-- At each read-only word index of R27 stands a register that ignores a write (R68). -/
theorem writeTarget_readOnly {n : Nat} (h : n ∈ [0, 2, 3, 7, 8, 9, 10, 11, 12, 13]) :
    ∃ r, hostRegAt n = some r ∧ ∀ (s : State) data, s.writeTarget (.reg r) data = .next s := by
  simp only [List.mem_cons, List.not_mem_nil, or_false] at h
  rcases h with rfl | rfl | rfl | rfl | rfl | rfl | rfl | rfl | rfl | rfl <;> exact ⟨_, rfl, fun _ _ => rfl⟩

/-! ### A host write by its row (R81, R101) -/

/-- The bits CLEAR and START of a CTRL write are those of its command field (R82). -/
theorem ctrlBit_of_command {data : Word} {c : BitVec 2} (command : data.extractLsb' 0 2 = c) {k : Nat} (hk : k < 2) :
    ctrlBit data k = c.getLsbD k := by
  have bit : data.extractLsb' k 1 = BitVec.ofBool (data.getLsbD k) := by
    ext j hj
    simp [show j = 0 by omega]
  rw [ctrlBit, bit, ← command, BitVec.getLsbD_extractLsb']
  cases value : data.getLsbD k <;> simp [hk, value]

/-- The CTRL row writes the three bits of its data (R82, R102). -/
theorem exec_decodeCtrl (s : State) (data : Word) :
    exec (decodeCtrl data) s = s.writeCtrl (ctrlBit data 2) (ctrlBit data 1) (ctrlBit data 0) := by
  have four : ∀ c : BitVec 2, c = 0b00#2 ∨ c = 0b01#2 ∨ c = 0b10#2 ∨ c = 0b11#2 := by decide
  rcases four (data.extractLsb' 0 2) with command | command | command | command <;>
    rw [decodeCtrl, command, ctrlBit_of_command command (by decide : 0 < 2),
      ctrlBit_of_command command (by decide : 1 < 2)] <;> rfl

/-- A write to an operand window, word reserved or not (R67, R107). -/
theorem writeTarget_window (s : State) (a : Operand) (k : Nat) (data : Word) :
    s.writeTarget (if s.params.nwords ≤ k then .reserved else .mem a k) data = .next (s.writeWindow a k data) := by
  unfold State.writeWindow
  by_cases h : k < s.params.nwords
  · rw [if_neg (by omega), if_pos h]; rfl
  · rw [if_pos (by omega), if_neg h]; rfl

/-- Whatever row of the opcode table takes a host write, it does what R101 says for the offset. -/
theorem exec_decodeWrite (s : State) (off : Offset) (data : Word) :
    exec (decodeWrite off data) s = s.writeTarget (hostTarget s.params off) data := by
  have register : ∀ {r : HostReg} {n : BitVec 13}, off.extractLsb' 2 13 = n → n.toNat < 1024 →
      hostRegAt n.toNat = some r → hostTarget s.params off = .reg r := fun index small reg => by
    rw [offset_index_eq_iff] at index
    exact hostTarget_register (by omega) (index ▸ reg)
  have window : ∀ (a : Operand) {n : BitVec 3}, off.extractLsb' 12 3 = n → n.toNat * 4096 = a.base →
      s.writeTarget (hostTarget s.params off) data = .next (s.writeWindow a (off.extractLsb' 2 10).toNat data) :=
    fun a _ number base => by
      rw [offset_window_eq_iff] at number
      rw [hostTarget_operand a (number ▸ base), writeTarget_window]
  unfold decodeWrite
  split_ifs with ctrl glen xlen plen g x p
  · rw [register ctrl (by decide) rfl]
    exact exec_decodeCtrl s data
  · rw [register glen (by decide) rfl]; rfl
  · rw [register xlen (by decide) rfl]; rfl
  · rw [register plen (by decide) rfl]; rfl
  · rw [window .g g rfl]; rfl
  · rw [window .x x rfl]; rfl
  · rw [window .p p rfl]; rfl
  · rfl

/-! ### The obligations on host offsets -/

/-- Settles O38: neither the map nor the choice of the row looks at the two low bits. -/
theorem offsetLowBitsIgnored : Obligations.OffsetLowBitsIgnored := by
  intro s we off data
  have oneBit : ∀ b : BitVec 1, b = 0#1 ∨ b = 1#1 := by decide
  rcases oneBit we with rfl | rfl
  · simp only [decodeHost_read, exec, execBusRd, hostTarget_aligned]
  · simp only [decodeHost_write, exec_decodeWrite, hostTarget_aligned]

/-- Settles O39: the map leads a reserved offset nowhere. -/
theorem reservedOffsetsInert : Obligations.ReservedOffsetsInert := by
  intro s off data reserved
  have nowhere : hostTarget s.params off = .reserved := hostTarget_reservedOffset reserved
  refine ⟨?_, ?_, ?_⟩
  · rw [exec, execBusRd, nowhere]; rfl
  · rw [exec, execBusWr, nowhere]; rfl
  · rw [exec_decodeWrite, nowhere]; rfl

/-- A write to a read-only register or to Y_MEM changes nothing (R68). -/
theorem writeTarget_readOnlyOffset {s : State} {off : Offset} (h : readOnlyOffset s.params off) (data : Word) :
    s.writeTarget (hostTarget s.params off) data = .next s := by
  rcases h with index | ⟨low, fits, high⟩
  · obtain ⟨r, reg, ignored⟩ := writeTarget_readOnly index
    have last : off.toNat / 4 ≤ 13 := by
      simp only [List.mem_cons, List.not_mem_nil, or_false] at index
      omega
    rw [hostTarget_register (by omega) reg, ignored]
  · rw [hostTarget_yMem (by omega), if_neg (by rw [offset_word_toNat]; omega)]
    rfl

/-- Settles O40: the write leads to a target that ignores it, by BUS_WR and by the row that takes it. -/
theorem readOnlyTargetsInert : Obligations.ReadOnlyTargetsInert := by
  intro s off data readOnly
  have ignored := writeTarget_readOnlyOffset readOnly data
  exact ⟨ignored, (exec_decodeWrite s off data).trans ignored⟩

/-! ### The write lock, and the turn of the host -/

/-- While busy, a window write of a word `k < NWORDS` is dropped (R69, R107). -/
theorem writeWindow_busy {s : State} (busy : s.busy = true) (a : Operand) {k : Nat} (fits : k < s.params.nwords)
    (v : Word) : s.writeWindow a k v = s.dropWrite := by
  simp [State.writeWindow, State.writeWord, fits, busy]

/-- While busy, a length write is dropped (R69, R106). -/
theorem writeLen_busy {s : State} (busy : s.busy = true) (a : Operand) (v : Word) :
    s.writeLen a v = s.dropWrite := by
  simp [State.writeLen, busy]

/-- Settles O42: the write lock drops each of the six writes. -/
theorem writeLockDropsWrites : Obligations.WriteLockDropsWrites := by
  intro s data busy
  have len : ∀ a, (.next (s.writeLen a data) : Host.Outcome State Fault Refusal) = .next s.dropWrite :=
    fun a => by rw [writeLen_busy busy]
  have word : ∀ a (n : BitVec 10), n.toNat < s.params.nwords →
      (.next (s.writeWindow a n.toNat data) : Host.Outcome State Fault Refusal) = .next s.dropWrite :=
    fun a n fits => by rw [writeWindow_busy busy a fits]
  exact ⟨len .g, len .x, len .p, fun n fits => ⟨word .g n fits, word .x n fits, word .p n fits⟩⟩

/-- Settles O5: the turn names the transaction, and taking it leaves the rest of the turns. -/
theorem hostTurnRunsTransaction : Obligations.HostTurnRunsTransaction := by
  intro s t rest turns
  have taken : s.takeTurn = { s with turns := rest } := by simp [State.takeTurn, turns]
  rw [← taken]
  exact step_run (by simp [State.nextAction, turns])

end Sys2Proof.Machine

/-! ## What a step leaves of memory (20_memory.md) -/

namespace Sys2Proof.Machine

variable {s t : State} {i : Instr}

/-! ### Host transactions and memory -/

@[simp] theorem clear_mem (s : State) : s.clear.mem = s.mem := by
  rcases clear_cases s with ⟨_, e⟩ | ⟨_, e⟩ <;> rw [e] <;> rfl

theorem start_mem (h : s.start = .next t) : t.mem = s.mem := by
  rcases start_next h with ⟨_, rfl⟩ | ⟨_, _, rfl⟩ <;> rfl

/-- A CTRL write stores nothing (R102). -/
theorem writeCtrl_mem {ie clear start : Bool} (h : s.writeCtrl ie clear start = .next t) : t.mem = s.mem := by
  have cleared : (if clear then (s.setIe ie).clear else s.setIe ie).mem = s.mem := by cases clear <;> simp
  cases start with
  | false => cases h; exact cleared
  | true => exact (start_mem h).trans cleared

@[simp] theorem writeLen_mem (s : State) (o : Operand) (v : Word) : (s.writeLen o v).mem = s.mem := by
  rcases writeLen_cases s o v with ⟨_, e⟩ | ⟨_, e⟩ <;> simp [e]

/-- A write of an operand word leaves the bytes beside it, and all of them while busy (R69, R107). -/
theorem loadByte_writeWord (o : Operand) {k a : Nat} (v : Word)
    (beside : s.busy = false → a < o.base + 4 * k ∨ o.base + 4 * k + 4 ≤ a) :
    Memory.loadByte (s.writeWord o k v).mem a = Memory.loadByte s.mem a := by
  rcases writeWord_cases s o k v with ⟨_, e⟩ | ⟨idle, e⟩ <;> rw [e]
  · rfl
  · exact loadByte_storeWord_other _ _ (beside idle)

/-- A window write leaves the bytes beside the word, and all of them for a reserved word (R67, R107). -/
theorem loadByte_writeWindow (o : Operand) {k a : Nat} (v : Word)
    (beside : s.busy = false → k < s.params.nwords → a < o.base + 4 * k ∨ o.base + 4 * k + 4 ≤ a) :
    Memory.loadByte (s.writeWindow o k v).mem a = Memory.loadByte s.mem a := by
  unfold State.writeWindow
  split
  · exact loadByte_writeWord o v fun idle => beside idle ‹_›
  · rfl

/-- A write to a target leaves the bytes beside the word that the target is, if it is one (R101). -/
theorem loadByte_writeTarget {g : Target} {data : Word} {a : Nat} (h : s.writeTarget g data = .next t)
    (beside : ∀ o k, g = .mem o k → s.busy = false → a < o.base + 4 * k ∨ o.base + 4 * k + 4 ≤ a) :
    Memory.loadByte t.mem a = Memory.loadByte s.mem a := by
  cases g with
  | mem o k => cases h; exact loadByte_writeWord o data (beside o k rfl)
  | yMem k => cases h; rfl
  | reserved => cases h; rfl
  | reg r =>
    cases r with
    | ctrl => rw [writeCtrl_mem h]
    | glen | xlen | plen => cases h; rw [writeLen_mem]
    | _ => cases h; rfl

/-- Settles O33: each host write leaves the bytes beside the word it stores to, by its row. -/
theorem hostMemoryFrame : Obligations.HostMemoryFrame := by
  intro i s t hhost h a beside
  cases i with
  | busRd off => cases h; rw [busRead_mem]
  | busWr off data =>
    exact loadByte_writeTarget h fun o k target idle =>
      beside o k ⟨idle, hostTarget_mem_lt target, .inl ⟨off, data, rfl, target⟩⟩
  | cmdNone ie => rw [writeCtrl_mem (ie := ie) (clear := false) (start := false) h]
  | cmdStart ie => rw [writeCtrl_mem (ie := ie) (clear := false) (start := true) h]
  | cmdClear ie => rw [writeCtrl_mem (ie := ie) (clear := true) (start := false) h]
  | cmdClearStart ie => rw [writeCtrl_mem (ie := ie) (clear := true) (start := true) h]
  | glenWr | xlenWr | plenWr => cases h; rw [writeLen_mem]
  | gMemWr n data =>
    cases h
    exact loadByte_writeWindow .g data fun idle fits => beside .g _ ⟨idle, fits, .inr ⟨n, data, rfl, by simp⟩⟩
  | xMemWr n data =>
    cases h
    exact loadByte_writeWindow .x data fun idle fits => beside .x _ ⟨idle, fits, .inr ⟨n, data, rfl, by simp⟩⟩
  | pMemWr n data =>
    cases h
    exact loadByte_writeWindow .p data fun idle fits => beside .p _ ⟨idle, fits, .inr ⟨n, data, rfl, by simp⟩⟩
  | _ => cases hhost

/-- A window has at most 1024 words, whatever NWORDS is (R61). -/
theorem hostTarget_mem_index_lt {p : Params} {off : Offset} {o : Operand} {k : Nat} (h : hostTarget p off = .mem o k) :
    k < 1024 := by
  have small : (off.extractLsb' 2 10).toNat < 1024 := BitVec.isLt _
  simp only [hostTarget] at h
  split at h
  · split at h <;> cases h
  · split_ifs at h <;> cases h <;> exact small

theorem State.storesWord_index_lt {o : Operand} {k : Nat} (h : s.storesWord i o k) : k < 1024 := by
  obtain ⟨_, _, ⟨off, _, _, target⟩ | ⟨n, _, rfl, _⟩⟩ := h
  · exact hostTarget_mem_index_lt target
  · exact n.isLt

/-- A host transaction stores nothing in Y_MEM (R62, R68). -/
theorem exec_host_loadByte_yMem (hhost : i.isUop = false) (h : exec i s = .next t) {a : Nat} (inY : yBase ≤ a) :
    Memory.loadByte t.mem a = Memory.loadByte s.mem a := by
  refine hostMemoryFrame i s t hhost h a fun o k stores => .inr ?_
  have below := o.word_below_yBase (State.storesWord_index_lt stores)
  omega

/-! ### Micro-ops, memory and the lengths -/

@[simp] theorem counted_mem (i : Instr) (s : State) : (counted i s).mem = s.mem := by cases i <;> rfl

@[simp] theorem counted_ylen (i : Instr) (s : State) : (counted i s).ylen = s.ylen := by cases i <;> rfl

@[simp] theorem counted_glen (i : Instr) (s : State) : (counted i s).glen = s.glen := by cases i <;> rfl

@[simp] theorem counted_xlen (i : Instr) (s : State) : (counted i s).xlen = s.xlen := by cases i <;> rfl

@[simp] theorem counted_plen (i : Instr) (s : State) : (counted i s).plen = s.plen := by cases i <;> rfl

/-- No micro-op but EXCH writes memory or YLEN (R70). -/
theorem UopEffect.output_eq (effect : UopEffect i s t) (other : i ≠ .exch) : t.mem = s.mem ∧ t.ylen = s.ylen := by
  cases effect with
  | exch which => exact absurd which other
  | _ => simp

/-- Every micro-op leaves the words below Y_MEM: EXCH writes from there on (R129). -/
theorem UopEffect.loadWord_eq (effect : UopEffect i s t) {c : Nat} (below : c + 4 ≤ yBase) :
    Memory.loadWord t.mem c = Memory.loadWord s.mem c := by
  cases effect with
  | exch => exact loadWord_storeWords_other _ _ _ (.inl below)
  | _ => simp

/-- No micro-op writes a length (R31). -/
theorem UopEffect.len_eq (effect : UopEffect i s t) (a : Operand) : t.len a = s.len a := by
  cases effect <;> exact len_congr (by simp) (by simp) (by simp) a

/-- No micro-op changes the value of an operand of a legal length (R31, R69). -/
theorem UopEffect.op_eq (effect : UopEffect i s t) (a : Operand) (legal : (s.len a).toNat ≤ 1024) : t.op a = s.op a := by
  rw [State.op, State.op, effect.len_eq]
  exact value_congr fun k hk => effect.loadWord_eq (a.word_below_yBase (by omega))

/-- The write lock: while busy no host step changes the value of an operand (R69). -/
theorem HostEffect.op_eq_of_busy (effect : HostEffect s t) (busy : s.busy = true) (a : Operand) : t.op a = s.op a := by
  cases effect with
  | none | dropped | ie | ieDropped => rfl
  | read v => cases v <;> rfl
  | len _ _ idle | word _ _ _ idle | ieCleared _ idle | ieStarted _ idle | ieRestarted _ idle =>
    exact absurd (idle.symm.trans busy) Bool.false_ne_true

/-- Settles O43: the reset event ends the run, and every other step of a run leaves the operands. -/
theorem operandsConstantDuringRun : Obligations.OperandsConstantDuringRun := by
  intro s t h hstep busy stillBusy a
  rcases step_next hstep with ⟨_, rfl⟩ | ⟨_, rfl⟩ | ⟨_, rfl⟩ | ⟨i, hrun, hexec⟩
  · simp
  · cases stillBusy
  · simp
  · rw [← op_takeTurn s a]
    rcases nextAction_run hrun with hhost | ⟨huop, _, _⟩
    · exact (exec_host_effect hhost hexec).op_eq_of_busy busy a
    · obtain ⟨_, capacity, _⟩ := h.params
      exact (exec_uop_effect huop hexec).op_eq a (Nat.le_trans (h.lengths a) capacity)

/-- Settles O59: no host transaction reaches Y_MEM or YLEN, and no micro-op but EXCH writes them. -/
theorem outputChangesOnlyByExch : Obligations.OutputChangesOnlyByExch := by
  intro s t hstep
  rcases step_next hstep with ⟨_, rfl⟩ | ⟨hreset, _⟩ | ⟨_, rfl⟩ | ⟨i, hrun, hexec⟩
  · exact .inr (.inr ⟨rfl, fun _ _ _ => rfl⟩)
  · exact .inr (.inl hreset)
  · exact .inr (.inr ⟨rfl, fun _ _ _ => rfl⟩)
  · rcases nextAction_run hrun with hhost | ⟨huop, _, _⟩
    · obtain ⟨_, ylen, _⟩ := (exec_host_effect hhost hexec).engine_fields_eq
      exact .inr (.inr ⟨ylen, fun a inY _ => exec_host_loadByte_yMem hhost hexec inY⟩)
    · by_cases hexch : i = .exch
      · exact .inl (hexch ▸ hrun)
      · obtain ⟨mem, ylen⟩ := (exec_uop_effect huop hexec).output_eq hexch
        exact .inr (.inr ⟨ylen, fun a _ _ => by rw [mem]; rfl⟩)

end Sys2Proof.Machine

/-! ## Encoding and decoding (30_encoding.md) -/

namespace Sys2Proof

variable {op : BitVec 5} {a b c : BitVec 9} {i : Instr}

/-! ### When a decoder of each shape accepts (R85, R86) -/

/-- A field decodes to a selector exactly when it holds the selector's value (R86). -/
theorem Sel.ofBits_eq_some {s : Sel} : Sel.ofBits a = some s ↔ a = s.bits :=
  ⟨fun h => (Sel.bits_of_ofBits h).symm, fun h => h ▸ s.ofBits_bits⟩

theorem decodeA_eq_ok {form : Sel → Option Instr} :
    decodeA a b c form = .ok i ↔ ∃ sa, form sa = some i ∧ a = sa.bits ∧ b = 0#9 ∧ c = 0#9 := by
  constructor
  · intro h
    unfold decodeA at h
    split at h
    next unused =>
      split at h
      · cases h
      next sa selA =>
        split at h
        · cases h
          exact ⟨sa, ‹_›, Sel.ofBits_eq_some.1 selA, unused⟩
        · cases h
    · cases h
  · rintro ⟨sa, hform, rfl, rfl, rfl⟩
    simp [decodeA, hform]

theorem decodeAB_eq_ok {form : Sel → Sel → Option Instr} :
    decodeAB a b c form = .ok i ↔ ∃ sa sb, form sa sb = some i ∧ a = sa.bits ∧ b = sb.bits ∧ c = 0#9 := by
  constructor
  · intro h
    unfold decodeAB at h
    split at h
    next unused =>
      split at h
      next sa sb selA selB =>
        split at h
        · cases h
          exact ⟨sa, sb, ‹_›, Sel.ofBits_eq_some.1 selA, Sel.ofBits_eq_some.1 selB, unused⟩
        · cases h
      · cases h
    · cases h
  · rintro ⟨sa, sb, hform, rfl, rfl, rfl⟩
    simp [decodeAB, hform]

theorem decodeABC_eq_ok {form : Sel → Sel → Sel → Option Instr} :
    decodeABC a b c form = .ok i ↔
      ∃ sa sb sc, form sa sb sc = some i ∧ a = sa.bits ∧ b = sb.bits ∧ c = sc.bits := by
  constructor
  · intro h
    unfold decodeABC at h
    split at h
    next sa sb sc selA selB selC =>
      split at h
      · cases h
        exact ⟨sa, sb, sc, ‹_›, Sel.ofBits_eq_some.1 selA, Sel.ofBits_eq_some.1 selB, Sel.ofBits_eq_some.1 selC⟩
      · cases h
    · cases h
  · rintro ⟨sa, sb, sc, hform, rfl, rfl, rfl⟩
    simp [decodeABC, hform]

/-! ### From a form to its encoding (R87) -/

section Forms

variable {sa sb sc : Sel}

theorem encode_of_formAcq (h : formAcq sa = some i) : encode i = .uop (packUop 0x01#5 sa.bits 0#9 0#9) := by
  unfold formAcq at h
  split at h <;> cases h <;> rfl

theorem encode_of_formSetup (h : formSetup sa sb = some i) :
    encode i = .uop (packUop 0x02#5 sa.bits sb.bits 0#9) := by
  unfold formSetup at h
  split at h <;> cases h
  rfl

theorem encode_of_formMod (h : formMod sa sb sc = some i) :
    encode i = .uop (packUop 0x03#5 sa.bits sb.bits sc.bits) := by
  unfold formMod at h
  split at h
  · obtain ⟨rfl, rfl⟩ := Option.ite_none_right_eq_some.1 h |>.imp_right Option.some.inj
    rfl
  · cases h

theorem encode_of_formCopy (h : formCopy sa sb = some i) :
    encode i = .uop (packUop 0x04#5 sa.bits sb.bits 0#9) := by
  unfold formCopy at h
  split at h
  · obtain ⟨rfl, rfl⟩ := Option.ite_none_right_eq_some.1 h |>.imp_right Option.some.inj
    rfl
  · cases h

theorem encode_of_formSqr (h : formSqr sa = some i) : encode i = .uop (packUop 0x05#5 sa.bits 0#9 0#9) := by
  unfold formSqr at h
  split at h <;> cases h <;> rfl

theorem encode_of_formMul (h : formMul sa sb sc = some i) :
    encode i = .uop (packUop 0x06#5 sa.bits sb.bits sc.bits) := by
  unfold formMul at h
  split at h
  · obtain ⟨rfl, rfl⟩ := Option.ite_none_right_eq_some.1 h |>.imp_right Option.some.inj
    rfl
  · cases h; rfl
  · cases h

theorem encode_of_formRed (h : formRed sa sb sc = some i) :
    encode i = .uop (packUop 0x07#5 sa.bits sb.bits sc.bits) := by
  unfold formRed at h
  split at h <;> cases h <;> rfl

theorem encode_of_formSet1 (h : formSet1 sa sb = some i) :
    encode i = .uop (packUop 0x08#5 sa.bits sb.bits 0#9) := by
  unfold formSet1 at h
  split at h <;> cases h
  rfl

theorem encode_of_formExch (h : formExch sa sb = some i) :
    encode i = .uop (packUop 0x09#5 sa.bits sb.bits 0#9) := by
  unfold formExch at h
  split at h <;> cases h
  rfl

/-- A one-field operation that accepts has the word its form encodes to. -/
theorem encode_of_decodeA {form : Sel → Option Instr}
    (word : ∀ {sa}, form sa = some i → encode i = .uop (packUop op sa.bits 0#9 0#9))
    (h : decodeA a b c form = .ok i) : encode i = .uop (packUop op a b c) := by
  obtain ⟨sa, hform, rfl, rfl, rfl⟩ := decodeA_eq_ok.1 h
  exact word hform

/-- A two-field operation that accepts has the word its form encodes to. -/
theorem encode_of_decodeAB {form : Sel → Sel → Option Instr}
    (word : ∀ {sa sb}, form sa sb = some i → encode i = .uop (packUop op sa.bits sb.bits 0#9))
    (h : decodeAB a b c form = .ok i) : encode i = .uop (packUop op a b c) := by
  obtain ⟨sa, sb, hform, rfl, rfl, rfl⟩ := decodeAB_eq_ok.1 h
  exact word hform

/-- A three-field operation that accepts has the word its form encodes to. -/
theorem encode_of_decodeABC {form : Sel → Sel → Sel → Option Instr}
    (word : ∀ {sa sb sc}, form sa sb sc = some i → encode i = .uop (packUop op sa.bits sb.bits sc.bits))
    (h : decodeABC a b c form = .ok i) : encode i = .uop (packUop op a b c) := by
  obtain ⟨sa, sb, sc, hform, rfl, rfl, rfl⟩ := decodeABC_eq_ok.1 h
  exact word hform

end Forms

/-- Fields that decode are those of the encoding of what they decode to. -/
theorem encode_of_decodeFields (h : decodeFields op a b c = .ok i) : encode i = .uop (packUop op a b c) := by
  unfold decodeFields at h
  rcases ite_eq_iff.1 h with ⟨-, noOperation⟩ | ⟨-, h⟩
  · cases noOperation
  rcases ite_eq_iff.1 h with ⟨rfl, accepts⟩ | ⟨-, h⟩
  · exact encode_of_decodeA encode_of_formAcq accepts
  rcases ite_eq_iff.1 h with ⟨rfl, accepts⟩ | ⟨-, h⟩
  · exact encode_of_decodeAB encode_of_formSetup accepts
  rcases ite_eq_iff.1 h with ⟨rfl, accepts⟩ | ⟨-, h⟩
  · exact encode_of_decodeABC encode_of_formMod accepts
  rcases ite_eq_iff.1 h with ⟨rfl, accepts⟩ | ⟨-, h⟩
  · exact encode_of_decodeAB encode_of_formCopy accepts
  rcases ite_eq_iff.1 h with ⟨rfl, accepts⟩ | ⟨-, h⟩
  · exact encode_of_decodeA encode_of_formSqr accepts
  rcases ite_eq_iff.1 h with ⟨rfl, accepts⟩ | ⟨-, h⟩
  · exact encode_of_decodeABC encode_of_formMul accepts
  rcases ite_eq_iff.1 h with ⟨rfl, accepts⟩ | ⟨-, h⟩
  · exact encode_of_decodeABC encode_of_formRed accepts
  rcases ite_eq_iff.1 h with ⟨rfl, accepts⟩ | ⟨-, h⟩
  · exact encode_of_decodeAB encode_of_formSet1 accepts
  rcases ite_eq_iff.1 h with ⟨rfl, accepts⟩ | ⟨-, h⟩
  · exact encode_of_decodeAB encode_of_formExch accepts
  rcases ite_eq_iff.1 h with ⟨rfl, accepts⟩ | ⟨-, reserved⟩
  · rcases ite_eq_iff.1 accepts with ⟨⟨rfl, rfl, rfl⟩, relall⟩ | ⟨-, unused⟩
    · cases relall
      rfl
    · cases unused
  · cases reserved

/-- Settles O11: a word is packed from its own fields, and they are those of the encoding. -/
theorem encodeInvertsDecode : Obligations.EncodeInvertsDecode := by
  intro u i h
  rw [encode_of_decodeFields h, packUop_fields]

/-! ### Decoding what encoding packs -/

/-- Decoding the word of a micro-op gives the micro-op back (R83 to R87). -/
theorem decodeUop_uopWord (uop : i.isUop = true) : decodeUop (uopWord i) = .ok i := by
  cases i with
  | acqM k => exact (decodeUop_packUop ..).trans (decodeA_eq_ok.2 ⟨.slot k, rfl, rfl, rfl, rfl⟩)
  | copy mid => exact (decodeUop_packUop ..).trans (decodeAB_eq_ok.2 ⟨.slot mid, .slot 1#8, rfl, rfl, rfl, rfl⟩)
  | sqrM mid => exact (decodeUop_packUop ..).trans (decodeA_eq_ok.2 ⟨.slot mid, rfl, rfl, rfl, rfl⟩)
  | mulM k j =>
    exact (decodeUop_packUop ..).trans (decodeABC_eq_ok.2 ⟨.slot k, .slot j, .slot 1#8, rfl, rfl, rfl, rfl⟩)
  | mulRes j => exact (decodeUop_packUop ..).trans (decodeABC_eq_ok.2 ⟨.res, .res, .slot j, rfl, rfl, rfl, rfl⟩)
  | redM j => exact (decodeUop_packUop ..).trans (decodeABC_eq_ok.2 ⟨.slot j, .opP, .ctx, rfl, rfl, rfl, rfl⟩)
  | acqCtx | acqRes | setup | mod | sqrRes | redRes | set1 | exch | relall => decide
  | _ => cases uop

/-- A micro-op is encoded by its micro-op word (R80). -/
theorem encode_uop (uop : i.isUop = true) : encode i = .uop (uopWord i) := by
  cases i with
  | busRd | busWr | cmdNone | cmdStart | cmdClear | cmdClearStart => cases uop
  | glenWr | xlenWr | plenWr | gMemWr | xMemWr | pMemWr => cases uop
  | _ => rfl

/-- A host write that no more specific row takes is BUS_WR's (R101). -/
theorem decodeWrite_busWr {off : Offset} (h : takenBySpecificRow off = false) (data : Word) :
    decodeWrite off data = .busWr off data := by
  simp only [takenBySpecificRow, Bool.or_eq_false_iff, beq_eq_false_iff_ne] at h
  simp [decodeWrite, h]

/-- A write of a length goes to the row of its register (R27, R106). -/
theorem decodeWrite_length (data : Word) :
    decodeWrite 0x0010#15 data = .glenWr data ∧ decodeWrite 0x0014#15 data = .xlenWr data ∧
      decodeWrite 0x0018#15 data = .plenWr data :=
  ⟨rfl, rfl, rfl⟩

/-- A write to an operand window goes to the window's row with the word number (R61, R107). -/
theorem decodeHost_packMem {window : BitVec 3} (notRegisters : window ≠ 0#3) (n : BitVec 10) (data : Word) :
    decodeHost (packMem window n data) =
      if window = 1#3 then .gMemWr n data
      else if window = 2#3 then .xMemWr n data
      else if window = 3#3 then .pMemWr n data
      else .busWr (window ++ n ++ 0#2) data := by
  have noRegister : ∀ {r : BitVec 13}, r.extractLsb' 10 3 = 0#3 → (window ++ n : BitVec 13) ≠ r :=
    windowIndex_ne notRegisters n
  rw [packMem, decodeHost_write, decodeWrite, windowOffset_index, windowOffset_window, windowOffset_word,
    if_neg (noRegister (by decide)), if_neg (noRegister (by decide)), if_neg (noRegister (by decide)),
    if_neg (noRegister (by decide))]

/-- Settles O10: micro-ops by their words, host transactions by their fields. -/
theorem decodeInvertsEncode : Obligations.DecodeInvertsEncode := by
  intro i general
  cases i with
  | busRd off => simp [decode, encode, decodeHost_read]
  | busWr off data => simp [decode, encode, decodeHost_write, decodeWrite_busWr (general off data rfl)]
  | cmdNone ie | cmdStart ie | cmdClear ie | cmdClearStart ie => cases ie <;> decide
  | glenWr data | xlenWr data | plenWr data => simp [decode, encode, decodeHost_write, decodeWrite_length]
  | gMemWr n data | xMemWr n data | pMemWr n data => simp [decode, encode, decodeHost_packMem]
  | _ => rw [encode_uop rfl, decode, decodeUop_uopWord rfl]

end Sys2Proof

namespace Sys2Proof

/-! ### Reserved operations, the word formulas and the words of the spec -/

/-- An operation of 0x0B to 0x1F is reserved, whatever the fields (R84). -/
theorem decodeFields_reserved {op : BitVec 5} (reserved : 0x0B ≤ op.toNat) (a b c : BitVec 9) :
    decodeFields op a b c = .rejected .reservedOp := by
  have other : ∀ {k : BitVec 5}, k.toNat < 0x0B → op ≠ k := fun low h => by
    subst h
    omega
  unfold decodeFields
  iterate 11 rw [if_neg (other (by decide))]

/-- Settles O13: the operation is looked at before any operand. -/
theorem reservedOpsRejected : Obligations.ReservedOpsRejected := by
  intro u
  refine ⟨fun noOperation => ?_, fun reserved => decodeFields_reserved reserved _ _ _⟩
  rw [decodeUop, noOperation]
  rfl

/-- Two fields side by side as a sum. -/
theorem append_toNat {m n : Nat} (x : BitVec m) (y : BitVec n) : (x ++ y).toNat = x.toNat * 2 ^ n + y.toNat := by
  rw [BitVec.toNat_append, ← Nat.shiftLeft_add_eq_or_of_lt y.isLt, Nat.shiftLeft_eq]

/-- A packed word as the sum of its fields at their places (R83). -/
theorem packUop_toNat (op : BitVec 5) (a b c : BitVec 9) :
    (packUop op a b c).toNat = op.toNat * 0x8000000 + a.toNat * 0x40000 + b.toNat * 0x200 + c.toNat := by
  simp only [packUop, append_toNat]
  omega

@[simp] theorem Sel.slot_bits_toNat (k : SlotIndex) : (Sel.slot k).bits.toNat = k.toNat :=
  (append_toNat 0#1 k).trans (by simp)

/-- Settles O14: each form's fields at their places. -/
theorem uopWordFormulas : Obligations.UopWordFormulas := by
  refine ⟨fun k => ?_, rfl, rfl, rfl, rfl, fun k => ?_, fun k => ?_, rfl, fun k b => ?_, fun j => ?_, fun j => ?_, rfl,
    rfl, rfl, rfl⟩
  all_goals simp only [uopWord, encode, packUop_toNat, Sel.slot_bits_toNat]
  all_goals simp only [Sel.bits, BitVec.toNat_ofNat]
  all_goals omega

/-- Settles O12: each word is decoded by its fields. -/
theorem specWordsDecode : Obligations.SpecWordsDecode := by
  unfold Obligations.SpecWordsDecode
  decide

end Sys2Proof

namespace Sys2Proof.Machine

/-- Settles O29: the operands are the first thing that issuing looks at. -/
theorem unadmittedFormsIllegal : Obligations.UnadmittedFormsIllegal := by
  intro i s uop unadmitted
  rw [exec_uop uop, issue_illegal unadmitted]

/-! ### The forms of an issue program (R87, R185) -/

/-- A micro-op in a form that the window size `w` admits (R87). -/
def Issuable (w : Nat) (i : Instr) : Prop := i.isUop = true ∧ i.admitted w = true

variable {w : Nat}

theorem slotIndex_toNat {k : Nat} (small : k < 256) : (slotIndex k).toNat = k := Nat.mod_eq_of_lt small

/-- The midpoint of a table halves its slots, which an index of the encoding covers (R11, R87). -/
theorem midSlot_of_validWindow (valid : validWindow w = true) :
    2 ≤ midSlot w ∧ 2 ^ w = 2 * midSlot w ∧ 2 ^ w ≤ 256 := by
  simp only [validWindow, Bool.and_eq_true, decide_eq_true_eq] at valid
  obtain ⟨low, high⟩ := valid
  interval_cases w <;> decide

section Forms

variable (valid : validWindow w = true) {k : Nat}
include valid

theorem issuable_acqM (below : k < 2 ^ w) : Issuable w (.acqM (slotIndex k)) := by
  obtain ⟨-, -, small⟩ := midSlot_of_validWindow valid
  refine ⟨rfl, ?_⟩
  simp [Instr.admitted, valid, slotIndex_toNat (Nat.lt_of_lt_of_le below small), below]

theorem slotIndex_midSlot_toNat : (slotIndex (midSlot w)).toNat = midSlot w := by
  obtain ⟨two, double, small⟩ := midSlot_of_validWindow valid
  exact slotIndex_toNat (by omega)

theorem issuable_copy : Issuable w (.copy (slotIndex (midSlot w))) :=
  ⟨rfl, by simp [Instr.admitted, valid, slotIndex_midSlot_toNat valid]⟩

theorem issuable_sqrM : Issuable w (.sqrM (slotIndex (midSlot w))) :=
  ⟨rfl, by simp [Instr.admitted, valid, slotIndex_midSlot_toNat valid]⟩

theorem issuable_mulM (above : midSlot w < k) (below : k < 2 ^ w) :
    Issuable w (.mulM (slotIndex k) (slotIndex (k - 1))) := by
  obtain ⟨-, -, small⟩ := midSlot_of_validWindow valid
  have index : (slotIndex k).toNat = k := slotIndex_toNat (by omega)
  have source : (slotIndex (k - 1)).toNat = k - 1 := slotIndex_toNat (by omega)
  refine ⟨rfl, ?_⟩
  simp [Instr.admitted, valid, index, source, above, below]
  omega

theorem issuable_redM (above : midSlot w ≤ k) (below : k < 2 ^ w) : Issuable w (.redM (slotIndex k)) := by
  obtain ⟨-, -, small⟩ := midSlot_of_validWindow valid
  refine ⟨rfl, ?_⟩
  simp [Instr.admitted, valid, slotIndex_toNat (Nat.lt_of_lt_of_le below small), above, below]

theorem issuable_mulRes (populated : k = 1 ∨ midSlot w ≤ k ∧ k < 2 ^ w) : Issuable w (.mulRes (slotIndex k)) := by
  obtain ⟨two, double, small⟩ := midSlot_of_validWindow valid
  refine ⟨rfl, ?_⟩
  simpa [Instr.admitted, valid, slotIndex_toNat (k := k) (by omega)] using populated

end Forms

/-! ### The table build (R152 to R157) -/

theorem pair_issuable {i j : Instr} (first : Issuable w i) (second : Issuable w j) : ∀ k ∈ [i, j], Issuable w k := by
  simp [first, second]

theorem replicate_issuable {l : List Instr} (block : ∀ i ∈ l, Issuable w i) (n : Nat) :
    ∀ i ∈ (List.replicate n l).flatten, Issuable w i := by
  intro i hi
  obtain ⟨_, copy, hi⟩ := List.mem_flatten.1 hi
  exact block i (List.eq_of_mem_replicate copy ▸ hi)

theorem allocPhase_issuable (valid : validWindow w = true) : ∀ i ∈ allocPhase w, Issuable w i :=
  List.forall_mem_map.2 fun _ hk => issuable_acqM valid (List.mem_range.1 hk)

theorem midPhase_issuable (valid : validWindow w = true) : ∀ i ∈ midPhase w, Issuable w i := by
  obtain ⟨two, double, small⟩ := midSlot_of_validWindow valid
  have squareReduce : ∀ i ∈ squareReduceMid w, Issuable w i :=
    pair_issuable (issuable_sqrM valid) (issuable_redM valid (Nat.le_refl _) (by omega))
  exact List.forall_mem_cons.2 ⟨issuable_copy valid, replicate_issuable squareReduce _⟩

theorem upperPhase_issuable (valid : validWindow w = true) : ∀ i ∈ upperPhase w, Issuable w i := by
  obtain ⟨two, double, small⟩ := midSlot_of_validWindow valid
  simp only [upperPhase, List.forall_mem_flatten, List.forall_mem_map, List.mem_range]
  intro n hn
  exact pair_issuable (issuable_mulM valid (by omega) (by omega)) (issuable_redM valid (by omega) (by omega))

theorem buildProgram_issuable (valid : validWindow w = true) : ∀ i ∈ buildProgram w, Issuable w i := by
  simp only [buildProgram, List.forall_mem_append]
  exact ⟨⟨⟨⟨allocPhase_issuable valid, pair_issuable ⟨rfl, rfl⟩ ⟨rfl, rfl⟩⟩,
    List.forall_mem_singleton.2 ⟨rfl, rfl⟩⟩, midPhase_issuable valid⟩, upperPhase_issuable valid⟩

/-! ### The scan (R173 to R183) -/

/-- The window registers of the scan between two bits: the window is not full, its value has as many bits as were taken,
and its first bit is 1, since only a 1 opens a window (R178 to R181). -/
structure WindowInv (w : Nat) (st : ScanState) : Prop where
  notFull : st.windowBitCount < w
  bounded : st.windowAccum < 2 ^ st.windowBitCount
  leading : st.mode = .accumulating → 2 ^ st.windowBitCount ≤ 2 * st.windowAccum
  closed : st.mode ≠ .accumulating → st.windowBitCount = 0

theorem scanStart_windowInv (valid : validWindow w = true) (d x : Nat) : WindowInv w (scanStart d x) := by
  have two : 2 ≤ w := by simp [validWindow] at valid; omega
  constructor <;> simp [scanStart]
  omega

variable {d x y : Nat} {st st' : ScanState}

/-- The next bit is 0 or 1, and taking it leaves the window registers (R174). -/
theorem nextBit_some (h : nextBit d x st = some (y, st')) (inv : WindowInv w st) : y < 2 ∧ WindowInv w st' := by
  have shifted : ∀ st₀, WindowInv w st₀ → (shiftDigit d st₀).1 < 2 ∧ WindowInv w (shiftDigit d st₀).2 :=
    fun st₀ inv₀ => ⟨Nat.mod_lt _ (by decide), { inv₀ with }⟩
  unfold nextBit at h
  split at h
  · split at h
    · cases h
    · cases h
      exact shifted _ { inv with }
  · cases h
    exact shifted _ inv

theorem multiplyReduceRes_issuable {j : Nat} (valid : validWindow w = true)
    (populated : j = 1 ∨ midSlot w ≤ j ∧ j < 2 ^ w) : ∀ i ∈ multiplyReduceRes j, Issuable w i :=
  pair_issuable (issuable_mulRes valid populated) ⟨rfl, rfl⟩

theorem squareReduceRes_issuable (w : Nat) : ∀ i ∈ squareReduceRes, Issuable w i :=
  pair_issuable ⟨rfl, rfl⟩ ⟨rfl, rfl⟩

theorem fullWindow_issuable {j : Nat} (valid : validWindow w = true) (upper : midSlot w ≤ j ∧ j < 2 ^ w) :
    ∀ i ∈ fullWindow w j, Issuable w i :=
  List.forall_mem_append.2
    ⟨replicate_issuable (squareReduceRes_issuable w) w, multiplyReduceRes_issuable valid (.inr upper)⟩

/-- A bit that is 1 at the start of a window or follows its bits fills the window with a value of its upper half, or
leaves it open (R180, R181, R185). -/
theorem appendBit_spec (valid : validWindow w = true) (inv : WindowInv w st) (bit : y < 2)
    (opens : 2 ^ st.windowBitCount ≤ 2 * st.windowAccum + y) :
    WindowInv w (appendBit w y st).1 ∧ ∀ i ∈ (appendBit w y st).2, Issuable w i := by
  have below : st.windowAccum * 2 + y < 2 ^ (st.windowBitCount + 1) := by
    have := inv.bounded
    omega
  unfold appendBit
  split
  next full =>
    refine ⟨⟨?_, ?_, nofun, fun _ => rfl⟩, fullWindow_issuable valid ⟨?_, full ▸ below⟩⟩
    · exact Nat.lt_of_le_of_lt (Nat.zero_le _) inv.notFull
    · exact Nat.one_pos
    · rw [midSlot, ← full, Nat.add_sub_cancel]
      omega
  next room =>
    have := inv.notFull
    refine ⟨⟨?_, below, fun _ => ?_, nofun⟩, nofun⟩
    · show st.windowBitCount + 1 < w
      omega
    · show 2 ^ (st.windowBitCount + 1) ≤ 2 * (st.windowAccum * 2 + y)
      omega

theorem scanBit_spec (valid : validWindow w = true) (inv : WindowInv w st) (bit : y < 2) :
    WindowInv w (scanBit w y st).1 ∧ ∀ i ∈ (scanBit w y st).2, Issuable w i := by
  have one : st.mode ≠ .accumulating → y ≠ 0 → 2 ^ st.windowBitCount ≤ 2 * st.windowAccum + y := fun mode set => by
    rw [inv.closed mode]
    omega
  unfold scanBit
  split
  next mode =>
    split
    · exact ⟨inv, nofun⟩
    · exact appendBit_spec valid inv bit (one (by simp [mode]) ‹_›)
  next mode =>
    split
    · exact ⟨inv, squareReduceRes_issuable w⟩
    · exact appendBit_spec valid inv bit (one (by simp [mode]) ‹_›)
  next mode => exact appendBit_spec valid inv bit (Nat.le_add_right_of_le (inv.leading mode))

/-- The flush multiplies by `M[1]` alone (R183). -/
theorem flushOps_issuable (valid : validWindow w = true) (st : ScanState) : ∀ i ∈ flushOps st, Issuable w i := by
  unfold flushOps
  split
  · simp only [List.forall_mem_flatten, List.forall_mem_map, flushStep, List.forall_mem_append]
    refine fun _ _ => ⟨squareReduceRes_issuable w, ?_⟩
    split
    · exact multiplyReduceRes_issuable valid (.inl rfl)
    · nofun
  · nofun
  · nofun

theorem scanLoop_issuable (valid : validWindow w = true) (fuel : Nat) (inv : WindowInv w st) :
    ∀ i ∈ (scanLoop d x w fuel st).2, Issuable w i := by
  induction fuel generalizing st with
  | zero => exact flushOps_issuable valid st
  | succ fuel ih =>
    unfold scanLoop
    split
    · exact flushOps_issuable valid st
    next taken =>
      obtain ⟨bit, inv'⟩ := nextBit_some taken inv
      obtain ⟨kept, here⟩ := scanBit_spec valid inv' bit
      exact List.forall_mem_append.2 ⟨here, ih kept⟩

/-- Settles O53: the build's indices by phase, and the scan's window values by the invariant of the window registers. -/
theorem programFormsAdmitted : Obligations.ProgramFormsAdmitted := by
  intro d x w _ hw
  have valid : validWindow w = true := hw ▸ windowSize_valid _
  change ∀ i ∈ issueProgram d x w, Issuable w i
  simp only [issueProgram, List.forall_mem_append]
  exact ⟨⟨⟨buildProgram_issuable valid, pair_issuable ⟨rfl, rfl⟩ ⟨rfl, rfl⟩⟩,
    scanLoop_issuable valid _ (scanStart_windowInv valid d x)⟩, pair_issuable ⟨rfl, rfl⟩ ⟨rfl, rfl⟩⟩

end Sys2Proof.Machine

/-! ## Host reads and commands (40_host_commands.md) -/

namespace Sys2Proof.Machine

variable {s t : State}

/-! ### The words that host registers read (R28 to R30, R108) -/

/-- CTRL reads IE in bit 2 (R29). -/
theorem ctrlWord_eq (s : State) : s.ctrlWord = if s.ie then 4#32 else 0#32 := by
  unfold State.ctrlWord
  cases s.ie <;> rfl

/-- PARAM reads the two parameters, each cut to the width of its field (R28). -/
theorem paramWord_eq (p : Params) :
    paramWord p = BitVec.ofNat 32 (p.nwords % 2 ^ 16 + p.digitBit % 2 ^ 8 * 2 ^ 16) := by
  apply BitVec.eq_of_toNat_eq
  simp only [paramWord, append_toNat, BitVec.toNat_ofNat]
  omega

theorem stateCode_toNat_lt (q : Seq) : q.stateCode.toNat < 4 := by
  cases q <;> simp [Seq.stateCode]

theorem failCode_toNat_lt (k : FailKind) : (failCode k).toNat < 4 := by cases k <;> decide

theorem errCode_toNat_lt (s : State) : s.errCode.toNat < 4 := by
  unfold State.errCode
  split
  · decide
  · exact failCode_toNat_lt _

@[simp] theorem flagWord_toNat (b : Bool) : (flagWord b).toNat = b.toNat := by cases b <;> rfl

/-- A field placed above a word that ends below it adds to the word. -/
theorem or_shiftLeft_toNat {x v : Word} {k : Nat} (below : x.toNat < 2 ^ k) (fits : v.toNat * 2 ^ k < 2 ^ 32) :
    (x ||| v <<< k).toNat = x.toNat + v.toNat * 2 ^ k := by
  rw [BitVec.toNat_or, BitVec.toNat_shiftLeft, Nat.mod_eq_of_lt (by rwa [Nat.shiftLeft_eq]), Nat.or_comm,
    ← Nat.shiftLeft_add_eq_or_of_lt below, Nat.shiftLeft_eq, Nat.add_comm]

/-- STATUS as a number: its fields do not overlap, for a window size that fits its field (R108). -/
theorem statusWord_toNat (window : s.w < 16) :
    s.statusWord.toNat = s.seq.stateCode.toNat + s.errCode.toNat * 2 ^ 4 + s.w * 2 ^ 8 + s.busyWr.toNat * 2 ^ 12 +
      s.irq.toNat * 2 ^ 13 := by
  have state := stateCode_toNat_lt s.seq
  have err := errCode_toNat_lt s
  have busyWr := Bool.toNat_le s.busyWr
  have irq := Bool.toNat_le s.irq
  have w : (BitVec.ofNat 32 s.w).toNat = s.w := Nat.mod_eq_of_lt (by omega)
  have upToErr := or_shiftLeft_toNat (x := s.seq.stateCode) (v := s.errCode) (k := 4) (by omega) (by omega)
  have upToWindow := or_shiftLeft_toNat (x := s.seq.stateCode ||| s.errCode <<< 4) (v := BitVec.ofNat 32 s.w) (k := 8)
    (by omega) (by omega)
  have upToBusyWr := or_shiftLeft_toNat (x := s.seq.stateCode ||| s.errCode <<< 4 ||| BitVec.ofNat 32 s.w <<< 8)
    (v := flagWord s.busyWr) (k := 12) (by omega) (by rw [flagWord_toNat]; omega)
  rw [State.statusWord, or_shiftLeft_toNat (by rw [upToBusyWr, flagWord_toNat]; omega) (by rw [flagWord_toNat]; omega),
    upToBusyWr, upToWindow, upToErr, w, flagWord_toNat, flagWord_toNat]

/-- A field of a word as a number. -/
theorem extractLsb'_toNat_eq (x : Word) (start len : Nat) :
    (x.extractLsb' start len).toNat = x.toNat / 2 ^ start % 2 ^ len := by
  rw [BitVec.extractLsb'_toNat, Nat.shiftRight_eq_div_pow]

theorem extractLsb'_eq_iff {x : Word} {start len : Nat} {v : BitVec len} :
    x.extractLsb' start len = v ↔ x.toNat / 2 ^ start % 2 ^ len = v.toNat := by
  rw [← BitVec.toNat_inj, extractLsb'_toNat_eq]

/-! ### Host reads (R100) -/

theorem exec_busRd_register {off : Offset} {r : HostReg} (region : off.toNat < 0x1000)
    (reg : hostRegAt (off.toNat / 4) = some r) : exec (.busRd off) s = .next { s with rdata := s.hostReg r } := by
  rw [exec, execBusRd, hostTarget_register region reg]
  rfl

/-- A read of a word `i < NWORDS` of any of the four memories looks for that word (R61, R100). -/
theorem exec_busRd_word {base i : Nat} {off : Offset} (window : base ∈ [0x1000, 0x2000, 0x3000, 0x4000])
    (fits : i < s.params.nwords) (small : i < 1024) (aligned : off.toNat / 4 * 4 = base + 4 * i) :
    exec (.busRd off) s = .next (s.busRead (Memory.loadWord s.mem (base + 4 * i))) := by
  simp only [List.mem_cons, List.not_mem_nil, or_false] at window
  have word : (off.extractLsb' 2 10).toNat = i := by rw [offset_word_toNat]; omega
  have operand : ∀ a : Operand, a.base = base → exec (.busRd off) s =
      .next (s.busRead (Memory.loadWord s.mem (base + 4 * i))) := fun a at_base => by
    rw [exec, execBusRd, hostTarget_operand a (by omega), word, if_neg (by omega), ← at_base]
    rfl
  rcases window with g | x | p | y
  · exact operand .g g.symm
  · exact operand .x x.symm
  · exact operand .p p.symm
  · rw [exec, execBusRd, hostTarget_yMem (by omega), word, if_neg (by omega), y]
    rfl

/-- Settles O34: each offset is that of its register, and CTRL and PARAM read as numbers. -/
theorem hostReadsRegisters : Obligations.HostReadsRegisters := by
  intro s
  rw [← ctrlWord_eq, ← paramWord_eq]
  exact ⟨exec_busRd_register (r := .id) (by decide) rfl, exec_busRd_register (r := .ctrl) (by decide) rfl,
    exec_busRd_register (r := .status) (by decide) rfl, exec_busRd_register (r := .param) (by decide) rfl,
    exec_busRd_register (r := .glen) (by decide) rfl, exec_busRd_register (r := .xlen) (by decide) rfl,
    exec_busRd_register (r := .plen) (by decide) rfl, exec_busRd_register (r := .ylen) (by decide) rfl,
    exec_busRd_register (r := .live) (by decide) rfl, exec_busRd_register (r := .sqrCnt) (by decide) rfl,
    exec_busRd_register (r := .mulCnt) (by decide) rfl, exec_busRd_register (r := .redCnt) (by decide) rfl,
    exec_busRd_register (r := .lastUop) (by decide) rfl, exec_busRd_register (r := .errUop) (by decide) rfl⟩

/-- Settles O35: the read looks for its word, and a word is there or a free value is drawn. -/
theorem hostReadsMemory : Obligations.HostReadsMemory := by
  intro s base i off window fits small aligned
  rw [exec_busRd_word window fits small aligned]
  exact ⟨fun v written => by rw [written]; rfl, fun unwritten => by rw [unwritten]; rfl⟩

/-- Settles O36: STATUS is the sum of its fields, so each field is a digit of it. -/
theorem statusFields : Obligations.StatusFields := by
  intro s window
  have sum := statusWord_toNat window
  have state := stateCode_toNat_lt s.seq
  have err := errCode_toNat_lt s
  have busyWr := Bool.toNat_le s.busyWr
  have irq := Bool.toNat_le s.irq
  have stateField : (s.statusWord.extractLsb' 0 2).toNat = s.seq.stateCode.toNat := by
    rw [extractLsb'_toNat_eq]
    omega
  have errField : (s.statusWord.extractLsb' 4 4).toNat = s.errCode.toNat := by
    rw [extractLsb'_toNat_eq]
    omega
  refine ⟨exec_busRd_register (r := .status) (by decide) rfl, ?_, ?_, ?_, ?_, ?_, ?_, ?_⟩
  · rw [stateField]
    cases s.seq <;> rfl
  · rw [extractLsb'_eq_iff, BitVec.toNat_zero]
    omega
  · rw [errField, State.errCode]
    rcases s.err with _ | _ | _ | _ <;> rfl
  · rw [extractLsb'_toNat_eq]
    omega
  · rw [extractLsb'_eq_iff, BitVec.toNat_ofBool]
    omega
  · rw [extractLsb'_eq_iff, BitVec.toNat_ofBool]
    omega
  · rw [extractLsb'_eq_iff, BitVec.toNat_zero]
    omega

/-! ### Writes of lengths and operand words (R106, R107) -/

/-- Settles O41: both sides are the write to the target that the offset leads to. -/
theorem busWrAgreesWithRows : Obligations.BusWrAgreesWithRows := exec_decodeWrite

theorem writeLen_idle (idle : s.busy = false) (a : Operand) (v : Word) :
    s.writeLen a v = s.setLen a (BitVec.ofNat 32 (min v.toNat s.params.nwords)) := by
  simp [State.writeLen, idle]

/-- A clamped length fits the register, being no more than the data (R106). -/
theorem clampedLength_toNat (v : Word) (n : Nat) : (BitVec.ofNat 32 (min v.toNat n)).toNat = min v.toNat n :=
  Nat.mod_eq_of_lt (Nat.lt_of_le_of_lt (Nat.min_le_left _ _) v.isLt)

theorem op_eq_zero_of_len {a : Operand} (empty : s.len a = 0#32) : s.op a = 0 := by
  rw [State.op, empty]
  rfl

/-- Settles O44: the clamp, the write lock, and the value of no words. -/
theorem lengthWriteClamps : Obligations.LengthWriteClamps := by
  intro s data
  have stored : s.busy = false → ∀ a, (.next (s.writeLen a data) : Host.Outcome State Fault Refusal) =
      .next (s.setLen a (BitVec.ofNat 32 (min data.toNat s.params.nwords))) :=
    fun idle a => by rw [writeLen_idle idle]
  have dropped : s.busy = true → ∀ a, (.next (s.writeLen a data) : Host.Outcome State Fault Refusal) =
      .next s.dropWrite := fun busy a => by rw [writeLen_busy busy]
  exact ⟨fun idle => ⟨stored idle .g, stored idle .x, stored idle .p⟩,
    fun busy => ⟨dropped busy .g, dropped busy .x, dropped busy .p⟩, clampedLength_toNat data _,
    fun _ empty => op_eq_zero_of_len empty⟩

theorem writeWindow_idle (idle : s.busy = false) (a : Operand) {k : Nat} (fits : k < s.params.nwords) (v : Word) :
    s.writeWindow a k v = { s with mem := Memory.storeWord s.mem (a.base + 4 * k) v } := by
  simp [State.writeWindow, State.writeWord, fits, idle]

theorem writeWindow_reserved (a : Operand) {k : Nat} (beyond : s.params.nwords ≤ k) (v : Word) :
    s.writeWindow a k v = s := if_neg (by omega)

/-- A word at or past an operand's length is no part of the operand's value (R63). -/
theorem op_storeWord_beyond (a : Operand) {k : Nat} (beyond : (s.len a).toNat ≤ k) (v : Word) :
    ({ s with mem := Memory.storeWord s.mem (a.base + 4 * k) v } : State).op a = s.op a :=
  have value : Memory.value (Memory.storeWord s.mem (a.base + 4 * k) v) a.base (s.len a).toNat = s.op a :=
    value_congr fun _ below => loadWord_storeWord_other _ _ (.inl (by omega))
  by cases a <;> exact value

/-- The three operand rows are one write of a window word (R107). -/
theorem exec_window_row {i : Instr} {n : BitVec 10} {data : Word} {o : Operand} {a : Nat}
    (row : (i = .gMemWr n data ∧ o = .g ∧ a = 0x1000 + 4 * n.toNat) ∨
      (i = .xMemWr n data ∧ o = .x ∧ a = 0x2000 + 4 * n.toNat) ∨
      (i = .pMemWr n data ∧ o = .p ∧ a = 0x3000 + 4 * n.toNat)) (s : State) :
    exec i s = .next (s.writeWindow o n.toNat data) ∧ a = o.base + 4 * n.toNat := by
  rcases row with ⟨rfl, rfl, rfl⟩ | ⟨rfl, rfl, rfl⟩ | ⟨rfl, rfl, rfl⟩ <;> exact ⟨rfl, rfl⟩

/-- Settles O45: the three cases of a window write, and for the stored word the memory's read-after-write laws. -/
theorem operandWordWriteStores : Obligations.OperandWordWriteStores := by
  intro s n data i o a row
  obtain ⟨run, rfl⟩ := exec_window_row row s
  rw [run]
  refine ⟨fun idle fits => ?_, fun busy fits => ?_, fun beyond => ?_⟩
  · rw [writeWindow_idle idle o fits]
    exact ⟨_, rfl, rfl, loadWord_storeWord_same _ _ _, fun _ apart => loadWord_storeWord_other _ _ apart,
      fun beyond => op_storeWord_beyond o beyond data⟩
  · rw [writeWindow_busy busy o fits]
    rfl
  · rw [writeWindow_reserved o beyond]

/-! ### CTRL commands (R102 to R105) -/

theorem exec_cmdStart (s : State) (b : Bool) : exec (.cmdStart b) s = (s.setIe b).start := rfl

theorem exec_cmdClear (s : State) (b : Bool) : exec (.cmdClear b) s = .next (s.setIe b).clear := rfl

theorem exec_cmdClearStart (s : State) (b : Bool) : exec (.cmdClearStart b) s = (s.setIe b).clear.start := rfl

theorem allWritten_iff {m : List Host.Cell} {base n : Nat} :
    Memory.allWritten m base n = true ↔ ∀ i < n, Memory.loadWord m (base + 4 * i) ≠ none := by
  induction n with
  | zero => simp [Memory.allWritten]
  | succ n ih => rw [Memory.allWritten, Bool.and_eq_true, ih, Option.isSome_iff_ne_none, Nat.forall_lt_succ_right]

/-- The premise of an accepted START, word by word (R109). -/
theorem operandsWritten_iff :
    s.operandsWritten = true ↔ ∀ a i, i < (s.len a).toNat → Memory.loadWord s.mem (a.base + 4 * i) ≠ none := by
  simp only [State.operandsWritten, List.all_eq_true, allWritten_iff]
  exact ⟨fun written a => written a (by cases a <;> simp), fun written a _ => written a⟩

theorem operandsWritten_eq_false_iff :
    s.operandsWritten = false ↔ ∃ a i, i < (s.len a).toNat ∧ Memory.loadWord s.mem (a.base + 4 * i) = none := by
  rw [← Bool.not_eq_true, operandsWritten_iff]
  push Not
  rfl

theorem irq_eq_true_iff : s.irq = true ↔ s.ie = true ∧ (s.seq = .done ∨ s.seq = .error) := by
  rw [State.irq, Bool.and_eq_true, State.finished]
  cases s.seq <;> simp

@[simp] theorem clear_ie (s : State) : s.clear.ie = s.ie := by
  rcases clear_cases s with ⟨_, e⟩ | ⟨_, e⟩ <;> rw [e] <;> rfl

theorem start_ie (h : s.start = .next t) : t.ie = s.ie := by
  rcases start_next h with ⟨_, rfl⟩ | ⟨_, _, rfl⟩ <;> rfl

/-- Settles O46: a CTRL write writes IE first, and neither CLEAR nor START touches it. -/
theorem cmdNoneUpdatesIe : Obligations.CmdNoneUpdatesIe := by
  intro s b
  refine ⟨rfl, fun i t command h => ?_, irq_eq_true_iff⟩
  rcases command with rfl | rfl | rfl
  · exact start_ie h
  · cases h
    exact clear_ie _
  · exact (start_ie h).trans (clear_ie _)

/-- Settles O47: the three cases of START after IE, and the invariant outside a run. -/
theorem startCommand : Obligations.StartCommand := by
  intro s b
  rw [exec_cmdStart]
  exact ⟨fun busy => start_busy busy,
    fun idle unwritten => start_unwritten idle (operandsWritten_eq_false_iff.2 unwritten),
    fun idle written => start_accepted idle (operandsWritten_iff.2 written), fun inv idle => inv.held_eq_nil idle⟩

/-- Settles O48: the two cases of CLEAR after IE. -/
theorem clearCommand : Obligations.ClearCommand := by
  intro s b
  rw [exec_cmdClear]
  exact ⟨fun busy => congrArg _ (clear_busy (s := s.setIe b) busy),
    fun idle => congrArg _ (clear_idle (s := s.setIe b) idle)⟩

/-- Settles O49: CLEAR while busy leaves the block busy, and an acknowledged run leaves the operands as they were. -/
theorem clearStartCommand : Obligations.ClearStartCommand := by
  intro s b
  rw [exec_cmdClearStart]
  refine ⟨fun busy => ?_, fun idle written => ?_, fun idle unwritten => ?_⟩
  · rw [clear_busy (s := s.setIe b) busy]
    exact start_busy (s := (s.setIe b).dropWrite) busy
  · rw [clear_idle (s := s.setIe b) idle]
    exact start_accepted (s := (s.setIe b).acknowledge) rfl (operandsWritten_iff.2 written)
  · rw [clear_idle (s := s.setIe b) idle]
    exact start_unwritten (s := (s.setIe b).acknowledge) rfl (operandsWritten_eq_false_iff.2 unwritten)

end Sys2Proof.Machine

/-! ## Micro-ops (41_datapath_uops.md) -/

namespace Sys2Proof.Machine

variable {s t : State} {i : Instr}

/-! ### The engine's step in a run (R120) -/

theorem nextWord_of_run {n : Nat} {u : Word} (position : s.seq = .run n) (entry : s.prog[n]? = some u) :
    s.nextWord = u := by
  simp [State.nextWord, position, entry]

theorem engineAction_of_ok (active : s.seq.active = true) (word : decodeUop s.nextWord = .ok i) :
    s.engineAction = .run i := by
  unfold State.engineAction
  cases hs : s.seq with
  | run | cleanup => simp only [word]
  | idle | select | done | error => simp [Seq.active, hs] at active

theorem engineAction_of_rejected (active : s.seq.active = true) {r : Reject}
    (word : decodeUop s.nextWord = .rejected r) : s.engineAction = .illegal := by
  unfold State.engineAction
  cases hs : s.seq with
  | run | cleanup => simp only [word]
  | idle | select | done | error => simp [Seq.active, hs] at active

theorem step_illegal (h : s.nextAction = .illegal) : step s = .fault .illegalUop := by simp [step, h]

/-- Settles O6: the engine's action at this entry, for each of the decoder's two answers. -/
theorem engineIssuesProgramWord : Obligations.EngineIssuesProgramWord := by
  intro s n u turn position entry
  rw [← nextWord_of_run position entry]
  have active : s.seq.active = true := by rw [position]; rfl
  have action := nextAction_engine turn
  exact ⟨fun i word => step_run (action.trans (engineAction_of_ok active word)),
    fun r word => step_illegal (action.trans (engineAction_of_rejected active word))⟩

/-! ### The preconditions that a state violates (R131) -/

theorem preconditionFault_of_held {r : Reg} (which : acquired i = some r) (held : r ∈ s.held) :
    preconditionFault s i = some .doubleAcquire := by
  simp [preconditionFault, which, State.holds, held]

theorem preconditionFault_of_not_held (notAcq : acquired i = none) {r : Reg} (name : r ∈ named i)
    (free : r ∉ s.held) : preconditionFault s i = some .notHeld := by
  have missing : (named i).all s.holds = false := List.all_eq_false.2 ⟨r, name, by simpa [State.holds] using free⟩
  simp [preconditionFault, notAcq, missing]

/-- Beyond the resources it names, a micro-op that is no ACQ is asked for values in its sources, and a RED for its
domain. -/
theorem preconditionFault_of_named_held (notAcq : acquired i = none) (held : ∀ r ∈ named i, r ∈ s.held) :
    preconditionFault s i =
      if !(sources i).all (fun r => (s.readReg r).isSome) then some .unpopulatedRead
      else (reduced i).bind (reduceFault s) := by
  have allHeld : (named i).all s.holds = true := by simpa [State.holds] using held
  simp only [preconditionFault, notAcq, allHeld]
  cases reduced i <;> rfl

theorem preconditionFault_of_unpopulated (notAcq : acquired i = none) (held : ∀ r ∈ named i, r ∈ s.held) {r : Reg}
    (source : r ∈ sources i) (empty : s.readReg r = none) : preconditionFault s i = some .unpopulatedRead := by
  have missing : (sources i).all (fun r => (s.readReg r).isSome) = false :=
    List.all_eq_false.2 ⟨r, source, by simp [empty]⟩
  simp [preconditionFault_of_named_held notAcq held, missing]

/-- An ACQ reads no register (R121). -/
theorem acquired_eq_none_of_source {r : Reg} (source : r ∈ sources i) : acquired i = none := by
  cases i with
  | acqM | acqCtx | acqRes => cases source
  | _ => rfl

/-- A RED names and reads the register it reduces and CTX (R127). -/
theorem reduced_operands {d : Reg} (red : reduced i = some d) :
    acquired i = none ∧ named i = [d, .ctx] ∧ sources i = [d, .ctx] := by
  cases i with
  | redM | redRes => cases red; exact ⟨rfl, rfl, rfl⟩
  | _ => cases red

/-- With its two registers held and populated, all that a RED can violate is its domain (R203). -/
theorem preconditionFault_of_reduced {d : Reg} {v c : Nat} (red : reduced i = some d) (held : d ∈ s.held)
    (ctxHeld : Reg.ctx ∈ s.held) (value : s.readReg d = some v) (ctx : s.ctx = some c) :
    preconditionFault s i = reduceFault s d := by
  obtain ⟨notAcq, names, reads⟩ := reduced_operands red
  have ctxValue : s.readReg .ctx = some c := ctx
  rw [preconditionFault_of_named_held notAcq (by simp [names, held, ctxHeld])]
  simp [reads, value, ctxValue, red]

/-- Settles O28: an admitted micro-op's fault is its violated precondition, line by line of R131. -/
theorem preconditionFaults : Obligations.PreconditionFaults := by
  intro i s uop admitted
  have faults : ∀ {f}, preconditionFault s i = some f → exec i s = .fault f :=
    fun violated => (exec_uop uop s).trans (issue_fault admitted violated)
  refine ⟨fun r which held => faults (preconditionFault_of_held which held), ?_, ?_, ?_⟩
  · rintro notAcq ⟨r, name, free⟩
    exact faults (preconditionFault_of_not_held notAcq name free)
  · rintro held ⟨r, source, empty⟩
    exact faults (preconditionFault_of_unpopulated (acquired_eq_none_of_source source) held source empty)
  · intro d v c red held ctxHeld value ctx
    have domain := preconditionFault_of_reduced red held ctxHeld value ctx
    have input : s.regValue d = v := regValue_eq value
    have context : s.regValue .ctx = c := regValue_eq ctx
    refine ⟨fun other => faults ?_, fun same large => faults ?_⟩
    · simp [domain, reduceFault, context, other]
    · simp [domain, reduceFault, context, input, same, large]

/-! ### Where a micro-op completes (R120) -/

/-- The kernel's answer uses up an input or a draw and nothing else (R13). -/
theorem takeAnswer_eq (s : State) :
    s.takeAnswer =
      { s with kernel := s.kernel.tail, draws := if s.kernel = [] then s.draws + 1 else s.draws } := by
  unfold State.takeAnswer
  cases s.kernel <;> rfl

/-- An ACQ that the kernel grants acquires its resource (R121): no modulus is asked for, and ACQ has no destination. -/
theorem UopEffect.eq_acquire (effect : UopEffect i s t) {r : Reg} (which : Machine.acquired i = some r)
    (ok : s.kernelAnswer = .ok) : t = ((s.takeAnswer.setLastUop (uopWord i)).acquire r).advance := by
  cases effect with
  | acquired q which' => cases which.symm.trans which'; rfl
  | failed k why => simp [ok] at why
  | zeroModulus _ who => rcases who with rfl | rfl <;> cases which
  | wrote d dest => simp [(destination_named dest).1] at which
  | set1 who | exch who | relall who => subst who; cases which

/-- A computing micro-op that can fail, where the kernel answers `ok` and a modulus it asks for is not 0, writes its value to
its destination and is counted (R122 to R127). -/
theorem UopEffect.eq_write (effect : UopEffect i s t) {d : Reg} (which : destination i = some d) (notSet1 : i ≠ .set1)
    (modulus : i = .setup ∨ i = .mod → s.op .p ≠ 0) (ok : s.kernelAnswer = .ok) :
    t = (counted i ((s.takeAnswer.setLastUop (uopWord i)).writeReg d (uopValue i s))).advance := by
  cases effect with
  | wrote e which' => cases which.symm.trans which'; rfl
  | failed k why => simp [ok] at why
  | zeroModulus op0 who => exact absurd op0 (modulus who)
  | acquired r acq => simp [(destination_named which).1] at acq
  | set1 who => exact absurd who notSet1
  | exch who | relall who => subst who; cases which

theorem exec_acquires {r : Reg} (uop : i.isUop = true) (which : acquired i = some r) (admitted : i.admitted s.w = true)
    (free : r ∉ s.held) (ok : s.kernelAnswer = .ok) :
    exec i s = .next ((s.takeAnswer.setLastUop (uopWord i)).acquire r).advance := by
  have met : preconditionFault s i = none := by simp [preconditionFault, which, State.holds, free]
  obtain ⟨t, run⟩ : ∃ t, exec i s = .next t := ⟨_, exec_uop_completes uop admitted met⟩
  rw [run, (exec_uop_effect uop run).eq_acquire which ok]

/-- A host transaction has no destination register (R20). -/
theorem isUop_of_destination {d : Reg} (which : destination i = some d) : i.isUop = true := by
  cases i with
  | busRd | busWr | cmdNone | cmdStart | cmdClear | cmdClearStart => cases which
  | glenWr | xlenWr | plenWr | gMemWr | xMemWr | pMemWr => cases which
  | _ => rfl

theorem exec_writes {d : Reg} (met : preconditionFault s i = none) (admitted : i.admitted s.w = true)
    (which : destination i = some d) (notSet1 : i ≠ .set1) (modulus : i = .setup ∨ i = .mod → s.op .p ≠ 0)
    (ok : s.kernelAnswer = .ok) {v : Nat} (value : uopValue i s = v) :
    exec i s = .next (counted i ((s.takeAnswer.setLastUop (uopWord i)).writeReg d v)).advance := by
  have uop := isUop_of_destination which
  obtain ⟨t, run⟩ : ∃ t, exec i s = .next t := ⟨_, exec_uop_completes uop admitted met⟩
  rw [run, (exec_uop_effect uop run).eq_write which notSet1 modulus ok, value]

/-- Settles O15: the three ACQ forms are one acquisition. -/
theorem acquireCompletes : Obligations.AcquireCompletes := by
  intro s ok
  refine ⟨fun k window below free => ?_, fun free => ?_, fun free => ?_⟩
  · rw [exec_acquires rfl rfl (by simp [Instr.admitted, window, below]) free ok, takeAnswer_eq]
    rfl
  · rw [exec_acquires rfl rfl rfl free ok, takeAnswer_eq]
    rfl
  · rw [exec_acquires rfl rfl rfl free ok, takeAnswer_eq]
    rfl

theorem modulo_of_ne_zero (a : Nat) {m : Nat} (positive : m ≠ 0) : modulo a m = a % m := if_neg positive

/-- Settles O16: SETUP names CTX and reads no register. -/
theorem setupCompletes : Obligations.SetupCompletes := by
  intro s held positive ok
  have met : preconditionFault s .setup = none :=
    preconditionFault_eq_none nofun (by simp [named, held]) nofun nofun
  rw [exec_writes met rfl rfl nofun (fun _ => positive) ok rfl, takeAnswer_eq]
  rfl

/-- Settles O18: MOD names `M[1]` and reads no register. -/
theorem modCompletes : Obligations.ModCompletes := by
  intro s held positive ok
  have met : preconditionFault s .mod = none :=
    preconditionFault_eq_none nofun (by simp [named, held]) nofun nofun
  rw [exec_writes met rfl rfl nofun (fun _ => positive) ok (modulo_of_ne_zero _ positive), takeAnswer_eq]
  rfl

/-- Settles O19: COPY names both slots and reads `M[1]`. -/
theorem copyCompletes : Obligations.CopyCompletes := by
  intro s mid v window middle midHeld oneHeld value ok
  have one : s.readReg (.slot 1#8) = some v := value
  have met : preconditionFault s (.copy mid) = none :=
    preconditionFault_eq_none nofun (by simp [named, midHeld, oneHeld]) (by simp [sources, one]) nofun
  have admitted : (Instr.copy mid).admitted s.w = true := by simp [Instr.admitted, window, midSlot, middle]
  rw [exec_writes met admitted rfl nofun nofun ok (regValue_eq one), takeAnswer_eq]
  rfl

/-- Settles O20: SQR names and reads its destination alone. -/
theorem squareCompletes : Obligations.SquareCompletes := by
  intro s v ok
  refine ⟨fun mid window middle held value => ?_, fun held value => ?_⟩
  · have input : s.readReg (.slot mid) = some v := value
    have met : preconditionFault s (.sqrM mid) = none :=
      preconditionFault_eq_none nofun (by simp [named, held]) (by simp [sources, input]) nofun
    have admitted : (Instr.sqrM mid).admitted s.w = true := by simp [Instr.admitted, window, midSlot, middle]
    have square : uopValue (.sqrM mid) s = v * v := by simp [uopValue, regValue_eq input]
    rw [exec_writes met admitted rfl nofun nofun ok square, takeAnswer_eq]
    rfl
  · have input : s.readReg .res = some v := value
    have met : preconditionFault s .sqrRes = none :=
      preconditionFault_eq_none nofun (by simp [named, held]) (by simp [sources, input]) nofun
    have square : uopValue .sqrRes s = v * v := by simp [uopValue, regValue_eq input]
    rw [exec_writes met rfl rfl nofun nofun ok square, takeAnswer_eq]
    rfl

/-- Settles O21: MUL names its destination and its two sources. -/
theorem multiplyCompletes : Obligations.MultiplyCompletes := by
  intro s a b ok
  refine ⟨fun k j window above below next kHeld jHeld oneHeld left right => ?_,
    fun j window populated resHeld jHeld left right => ?_⟩
  · have left : s.readReg (.slot j) = some a := left
    have right : s.readReg (.slot 1#8) = some b := right
    have met : preconditionFault s (.mulM k j) = none :=
      preconditionFault_eq_none nofun (by simp [named, kHeld, jHeld, oneHeld]) (by simp [sources, left, right]) nofun
    have admitted : (Instr.mulM k j).admitted s.w = true := by
      simp [Instr.admitted, window, midSlot, above, below, next]
    have product : uopValue (.mulM k j) s = a * b := by simp [uopValue, regValue_eq left, regValue_eq right]
    rw [exec_writes met admitted rfl nofun nofun ok product, takeAnswer_eq]
    rfl
  · have left : s.readReg .res = some a := left
    have right : s.readReg (.slot j) = some b := right
    have met : preconditionFault s (.mulRes j) = none :=
      preconditionFault_eq_none nofun (by simp [named, resHeld, jHeld]) (by simp [sources, left, right]) nofun
    have populated : j.toNat = 1 ∨ midSlot s.w ≤ j.toNat ∧ j.toNat < 2 ^ s.w := populated
    have admitted : (Instr.mulRes j).admitted s.w = true := by simpa [Instr.admitted, window] using populated
    have product : uopValue (.mulRes j) s = a * b := by simp [uopValue, regValue_eq left, regValue_eq right]
    rw [exec_writes met admitted rfl nofun nofun ok product, takeAnswer_eq]
    rfl

/-- A RED of a register with the value `v` has the contract of the reduction pipe (R127, R202). -/
theorem uopValue_of_reduced {d : Reg} {v : Nat} (red : reduced i = some d) (value : s.readReg d = some v)
    (positive : s.op .p ≠ 0) : uopValue i s = v % s.op .p := by
  have contract : uopValue i s = modulo (s.regValue d) (s.op .p) := by
    cases i with
    | redM | redRes => cases red; rfl
    | _ => cases red
  rw [contract, modulo_of_ne_zero _ positive, regValue_eq value]

/-- The preconditions of RED in the domain of R202. -/
theorem preconditionFault_of_domain {d : Reg} {v : Nat} (red : reduced i = some d) (held : d ∈ s.held)
    (ctxHeld : Reg.ctx ∈ s.held) (value : s.readReg d = some v) (ctx : s.ctx = some (ctxOf (s.op .p)))
    (small : v < s.op .p * s.op .p) : preconditionFault s i = none := by
  have context : s.regValue .ctx = ctxOf (s.op .p) := regValue_eq ctx
  rw [preconditionFault_of_reduced red held ctxHeld value ctx]
  simp [reduceFault, context, regValue_eq value, small]

/-- Settles O22: both RED forms in the domain, where the modulus is not 0. -/
theorem reduceCompletes : Obligations.ReduceCompletes := by
  intro s v ok ctxHeld ctx small
  have positive : s.op .p ≠ 0 := fun zero => by simp [zero] at small
  refine ⟨fun j window above below held value => ?_, fun held value => ?_⟩
  · have met := preconditionFault_of_domain (i := .redM j) rfl held ctxHeld value ctx small
    have admitted : (Instr.redM j).admitted s.w = true := by simp [Instr.admitted, window, midSlot, above, below]
    rw [exec_writes met admitted rfl nofun nofun ok (uopValue_of_reduced rfl value positive), takeAnswer_eq]
    rfl
  · have met := preconditionFault_of_domain (i := .redRes) rfl held ctxHeld value ctx small
    rw [exec_writes met rfl rfl nofun nofun ok (uopValue_of_reduced rfl value positive), takeAnswer_eq]
    rfl

/-! ### The micro-ops that never fail (R222) -/

/-- Settles O23: SET1 names RES and reads no register. -/
theorem set1Completes : Obligations.Set1Completes := by
  intro s held positive
  have met : preconditionFault s .set1 = none :=
    preconditionFault_eq_none nofun (by simp [named, held]) nofun nofun
  rw [exec_uop_completes rfl rfl met, ← modulo_of_ne_zero 1 positive]
  rfl

/-- EXCH with RES held and populated is the move of its value to Y_MEM (R129). -/
theorem exec_exch (held : Reg.res ∈ s.held) {v : Nat} (value : s.res = some v) :
    exec .exch s = .next (s.setLastUop (uopWord .exch)).moveResult.advance := by
  have input : s.readReg .res = some v := value
  have met : preconditionFault s .exch = none :=
    preconditionFault_eq_none nofun (by simp [named, held]) (by simp [sources, input]) nofun
  exact exec_uop_completes rfl rfl met

/-- Settles O24: the words of Y_MEM are those of the value moved. -/
theorem exchCompletes : Obligations.ExchCompletes := by
  intro s v held value
  have moved : s.regValue .res = v := regValue_eq value
  refine ⟨_, exec_exch held value, fun k fits => ?_, ?_⟩
  · rw [← moved]
    exact loadWord_storeWords _ _ _ fits
  · rw [← moved]
    rfl

/-- Settles O25: RELALL is admitted everywhere and has no precondition (R87, R131). -/
theorem relallCompletes : Obligations.RelallCompletes := fun _ => rfl

/-! ### What a micro-op leaves unchanged -/

@[simp] theorem counted_params (i : Instr) (s : State) : (counted i s).params = s.params := by cases i <;> rfl

@[simp] theorem counted_ie (i : Instr) (s : State) : (counted i s).ie = s.ie := by cases i <;> rfl

@[simp] theorem counted_busyWr (i : Instr) (s : State) : (counted i s).busyWr = s.busyWr := by cases i <;> rfl

@[simp] theorem counted_err (i : Instr) (s : State) : (counted i s).err = s.err := by cases i <;> rfl

@[simp] theorem counted_errUop (i : Instr) (s : State) : (counted i s).errUop = s.errUop := by cases i <;> rfl

@[simp] theorem counted_held (i : Instr) (s : State) : (counted i s).held = s.held := by cases i <;> rfl

@[simp] theorem counted_w (i : Instr) (s : State) : (counted i s).w = s.w := by cases i <;> rfl

@[simp] theorem counted_prog (i : Instr) (s : State) : (counted i s).prog = s.prog := by cases i <;> rfl

@[simp] theorem counted_scan (i : Instr) (s : State) : (counted i s).scan = s.scan := by cases i <;> rfl

@[simp] theorem counted_rdata (i : Instr) (s : State) : (counted i s).rdata = s.rdata := by cases i <;> rfl

@[simp] theorem counted_turns (i : Instr) (s : State) : (counted i s).turns = s.turns := by cases i <;> rfl

@[simp] theorem readReg_counted (i : Instr) (s : State) (r : Reg) : (counted i s).readReg r = s.readReg r := by
  rcases counted_cases i s with e | e | e | e <;> simp [e]

theorem counted_sqrCnt (notM : ∀ k, i ≠ .sqrM k) (notRes : i ≠ .sqrRes) (s : State) :
    (counted i s).sqrCnt = s.sqrCnt := by
  cases i with
  | sqrM k => exact absurd rfl (notM k)
  | sqrRes => exact absurd rfl notRes
  | _ => rfl

theorem counted_mulCnt (notM : ∀ k b, i ≠ .mulM k b) (notRes : ∀ j, i ≠ .mulRes j) (s : State) :
    (counted i s).mulCnt = s.mulCnt := by
  cases i with
  | mulM k b => exact absurd rfl (notM k b)
  | mulRes j => exact absurd rfl (notRes j)
  | _ => rfl

theorem counted_redCnt (notM : ∀ j, i ≠ .redM j) (notRes : i ≠ .redRes) (s : State) :
    (counted i s).redCnt = s.redCnt := by
  cases i with
  | redM j => exact absurd rfl (notM j)
  | redRes => exact absurd rfl notRes
  | _ => rfl

/-- No micro-op writes the parameters, IE, BUSY_WR, the lengths, the window size, the program, the scan registers or the last
host read, and none takes a turn (R28, R29, R31, R38, R69). -/
theorem UopEffect.control_fields_eq (effect : UopEffect i s t) :
    t.params = s.params ∧ t.ie = s.ie ∧ t.busyWr = s.busyWr ∧ t.glen = s.glen ∧ t.xlen = s.xlen ∧ t.plen = s.plen ∧
      t.w = s.w ∧ t.prog = s.prog ∧ t.scan = s.scan ∧ t.rdata = s.rdata ∧ t.turns = s.turns := by
  cases effect <;> simp

/-- A micro-op counts itself when it succeeds, and touches no other counter (R34). -/
theorem UopEffect.counters_eq (effect : UopEffect i s t) :
    ((∀ k, i ≠ .sqrM k) → i ≠ .sqrRes → t.sqrCnt = s.sqrCnt) ∧
    ((∀ k b, i ≠ .mulM k b) → (∀ j, i ≠ .mulRes j) → t.mulCnt = s.mulCnt) ∧
    ((∀ j, i ≠ .redM j) → i ≠ .redRes → t.redCnt = s.redCnt) := by
  cases effect with
  | wrote d =>
    exact ⟨fun notM notRes => by simp [counted_sqrCnt notM notRes],
      fun notM notRes => by simp [counted_mulCnt notM notRes],
      fun notM notRes => by simp [counted_redCnt notM notRes]⟩
  | _ => simp

/-- ERR and ERR_UOP are written where a failure is entered, and nowhere else (R226). -/
theorem UopEffect.failure_eq (effect : UopEffect i s t) (noFailure : t.seq ≠ .cleanup) :
    t.err = s.err ∧ t.errUop = s.errUop := by
  cases effect with
  | zeroModulus | failed => exact absurd (enterFailure_seq ..) noFailure
  | _ => simp

/-- A micro-op but EXCH and RELALL leaves every register but its destination and the one it acquires (R121 to R128,
R226). -/
theorem UopEffect.readReg_eq (effect : UopEffect i s t) (notExch : i ≠ .exch) (notRelall : i ≠ .relall) {r : Reg}
    (notDest : destination i ≠ some r) (notAcq : Machine.acquired i ≠ some r) : t.readReg r = s.readReg r := by
  cases effect with
  | zeroModulus | failed => simp [readReg_enterFailure, Ne.symm notDest]
  | acquired q which =>
    have other : r ≠ q := by rintro rfl; exact notAcq which
    simp [readReg_acquire, other]
  | wrote d which =>
    have other : r ≠ d := by rintro rfl; exact notDest which
    simp [readReg_writeReg, other]
  | set1 which =>
    subst which
    have other : r ≠ .res := by rintro rfl; exact notDest rfl
    simp [readReg_writeReg, other]
  | exch which => exact absurd which notExch
  | relall which => exact absurd which notRelall

/-- Only ACQ and RELALL change the held set (R33). -/
theorem UopEffect.held_eq (effect : UopEffect i s t) (notAcq : Machine.acquired i = none) (notRelall : i ≠ .relall) :
    t.held = s.held := by
  cases effect with
  | acquired q which => simp [which] at notAcq
  | relall which => exact absurd which notRelall
  | _ => simp

/-- Settles O30: field by field, from the effects that a micro-op can have. -/
theorem uopFrame : Obligations.UopFrame := by
  intro i s t uop notExch notRelall run
  have effect : UopEffect i s t := exec_uop_effect uop run
  obtain ⟨mem, ylen⟩ := effect.output_eq notExch
  obtain ⟨params, ie, busyWr, glen, xlen, plen, control⟩ := effect.control_fields_eq
  obtain ⟨w, prog, scan, rdata, turns⟩ := control
  obtain ⟨sqrCnt, mulCnt, redCnt⟩ := effect.counters_eq
  exact ⟨fun r notDest notAcq => effect.readReg_eq notExch notRelall notDest notAcq,
    fun notAcq => effect.held_eq notAcq notRelall, fun a => by rw [mem], params, ie, busyWr, glen, xlen, plen, ylen, w,
    prog, scan, rdata, turns, sqrCnt, mulCnt, redCnt, effect.failure_eq⟩

theorem exec_exch_next (run : exec .exch s = .next t) : t = (s.setLastUop (uopWord .exch)).moveResult.advance := by
  obtain ⟨-, -, moved⟩ := exec_uop_next rfl run
  exact moved

theorem exec_relall_next (run : exec .relall s = .next t) :
    t = (s.setLastUop (uopWord .relall)).releaseAll.advance := by
  obtain ⟨-, -, released⟩ := exec_uop_next rfl run
  exact released

/-- Settles O31: EXCH writes the words of Y_MEM, YLEN and RES, and RELALL the registers and the held set. -/
theorem exchRelallFrame : Obligations.ExchRelallFrame := by
  intro i s t which run
  rcases which with rfl | rfl
  · obtain rfl := exec_exch_next run
    refine ⟨fun a outside => ?_, fun _ => ⟨rfl, fun r other => ?_⟩, nofun, ?_⟩
    · exact loadByte_storeWords_other _ _ _ (outside.resolve_left nofun)
    · simp [readReg_moveResult, other]
    · simp
  · obtain rfl := exec_relall_next run
    exact ⟨fun _ _ => rfl, nofun, fun _ => rfl, by simp⟩

end Sys2Proof.Machine

/-! ## The table build (42_power_table_builder.md) -/

namespace Sys2Proof.Machine

variable {s : State} {w : Nat}

/-! ### The Select step and the window size (R150, R151) -/

theorem step_atSelect (turn : s.enginesTurn) (atSelect : s.seq = .select) :
    step s = .next s.takeTurn.selectStep :=
  step_select (by rw [nextAction_engine turn, State.engineAction, atSelect])

/-- Settles O8: what the Select step computes depends on the exponent and on the digit width alone. -/
theorem selectStepEntersRun : Obligations.SelectStepEntersRun := by
  intro s turn atSelect
  refine ⟨_, s.takeTurn.selectStep.scan, rfl, ?_⟩
  rw [step_atSelect turn atSelect, State.selectStep, op_takeTurn]
  rfl

theorem windowSize_ranges (b : Nat) :
    (b ≤ 7 → windowSize b = 2) ∧ (8 ≤ b ∧ b ≤ 36 → windowSize b = 3) ∧ (37 ≤ b ∧ b ≤ 140 → windowSize b = 4) ∧
    (141 ≤ b ∧ b ≤ 450 → windowSize b = 5) ∧ (451 ≤ b ∧ b ≤ 1303 → windowSize b = 6) ∧
    (1304 ≤ b ∧ b ≤ 3529 → windowSize b = 7) ∧ (3530 ≤ b → windowSize b = 8) := by
  unfold windowSize
  split_ifs <;> omega

/-- A value fits in `n` bits when it is below `2^n` (R15). -/
theorem bitLength_le {v n : Nat} (below : v < 2 ^ n) : bitLength v ≤ n := by
  unfold bitLength
  split
  next => exact Nat.zero_le n
  next positive => exact (Nat.log2_lt positive).2 below

/-- Settles O50: the window size of each range gives its row, and the exponent's memory bounds the bit length. -/
theorem windowSizeSelection : Obligations.WindowSizeSelection := by
  refine ⟨?_, fun s inv capacity => ?_⟩
  · rintro b w rfl
    obtain ⟨two, three, four, five, six, seven, eight⟩ := windowSize_ranges b
    exact ⟨_, rfl, fun h => by rw [two h]; rfl, fun h => by rw [three h]; rfl, fun h => by rw [four h]; rfl,
      fun h => by rw [five h]; rfl, fun h => by rw [six h]; rfl, fun h => by rw [seven h]; rfl,
      fun h => by rw [eight h]; rfl⟩
  · have bound := bitLength_le (op_lt s .x (inv.lengths .x))
    rwa [capacity] at bound

/-! ### The length of the build (R160) -/

/-- The build by what it repeats: the ACQs of slots, four micro-ops, the squarings and the upper half (R160). -/
theorem buildProgram_eq (w : Nat) :
    buildProgram w = allocPhase w ++ [.acqCtx, .setup, .mod, .copy (slotIndex (midSlot w))] ++
      ((List.replicate (w - 1) (squareReduceMid w)).flatten ++ upperPhase w) := by
  simp [buildProgram, setupPhase, midPhase]

theorem length_allocPhase (w : Nat) : (allocPhase w).length = 2 ^ w := by simp [allocPhase]

theorem length_squarings (w : Nat) : (List.replicate (w - 1) (squareReduceMid w)).flatten.length = 2 * (w - 1) := by
  simp [squareReduceMid, Nat.mul_comm]

theorem length_upperPhase (w : Nat) : (upperPhase w).length = 2 * (midSlot w - 1) := by
  simp [upperPhase, Function.comp_def, multiplyReduceSlot, Nat.mul_comm]

/-- Where neither an ACQ of a slot nor one of the four micro-ops after them counts, the build counts what its squarings
of the midpoint and its multiplications do (R152 to R157). -/
theorem countP_buildProgram {p : Instr → Bool} {w m n : Nat} (acq : ∀ k, p (.acqM k) = false)
    (once : [.acqCtx, .setup, .mod, .copy (slotIndex (midSlot w))].countP p = 0)
    (square : (squareReduceMid w).countP p = m) (multiply : ∀ k, (multiplyReduceSlot k).countP p = n) :
    (buildProgram w).countP p = (w - 1) * m + (midSlot w - 1) * n := by
  have alloc : (allocPhase w).countP p = 0 := by simp [allocPhase, List.countP_eq_zero, acq]
  rw [buildProgram_eq, List.countP_append, List.countP_append, List.countP_append, alloc, once]
  simp [List.countP_flatten, upperPhase, square, multiply, Function.comp_def]

/-- Settles O51: the phases' lengths and counts, and `2^w` as twice the midpoint. -/
theorem buildLength : Obligations.BuildLength := by
  intro w low high
  obtain ⟨two, double, -⟩ := midSlot_of_validWindow (w := w) (by simp [validWindow, low, high])
  have length : (buildProgram w).length = 2 ^ (w + 1) + 2 * w := by
    simp only [buildProgram_eq, List.length_append, length_allocPhase, length_squarings, length_upperPhase,
      List.length_cons, List.length_nil]
    omega
  refine ⟨length, ⟨_, buildProgram_eq w, length_allocPhase w, ?_⟩, ?_, ?_, ?_, ?_⟩
  · rw [List.length_append, length_squarings, length_upperPhase, midSlot]
  · rw [countP_buildProgram (m := 1) (n := 0) (fun _ => rfl) rfl rfl fun _ => rfl]
    omega
  · rw [countP_buildProgram (m := 0) (n := 1) (fun _ => rfl) rfl rfl fun _ => rfl, midSlot]
    omega
  · rw [countP_buildProgram (m := 1) (n := 1) (fun _ => rfl) rfl rfl fun _ => rfl, midSlot]
    omega
  · rintro rfl
    exact length

/-! ### What the resources hold -/

/-- The held set and the values of the registers: what the micro-ops of a run read and write of the datapath
(R20, R33). -/
@[ext]
structure Contents where
  held : List Reg
  value : Reg → Option Nat

/-- The contents of the datapath in a state. -/
def State.contents (s : State) : Contents := ⟨s.held, s.readReg⟩

/-- Nothing is held, and no register has a value. -/
def Contents.empty : Contents := ⟨[], fun _ => none⟩

/-- The contents after an ACQ of `r` (R121). -/
def Contents.acquire (c : Contents) (r : Reg) : Contents := ⟨c.held ++ [r], Function.update c.value r none⟩

/-- The contents after a write of `v` to `r` (R22). -/
def Contents.write (c : Contents) (r : Reg) (v : Nat) : Contents := ⟨c.held, Function.update c.value r (some v)⟩

section Contents

variable (s : State) (c : Contents)

@[simp] theorem contents_setLastUop (u : Word) : (s.setLastUop u).contents = s.contents :=
  Contents.ext rfl (funext fun r => by simp [State.contents])

@[simp] theorem contents_takeAnswer : s.takeAnswer.contents = s.contents :=
  Contents.ext (by simp [State.contents]) (funext fun r => by simp [State.contents])

@[simp] theorem contents_advance : s.advance.contents = s.contents :=
  Contents.ext rfl (funext fun r => by simp [State.contents])

@[simp] theorem contents_takeTurn : s.takeTurn.contents = s.contents :=
  Contents.ext rfl (funext fun r => by simp [State.contents])

@[simp] theorem contents_selectStep : s.selectStep.contents = s.contents :=
  Contents.ext rfl (funext fun r => by simp [State.contents])

@[simp] theorem contents_counted (i : Instr) : (counted i s).contents = s.contents :=
  Contents.ext (by simp [State.contents]) (funext fun r => by simp [State.contents])

@[simp] theorem contents_acquire (r : Reg) : (s.acquire r).contents = s.contents.acquire r :=
  Contents.ext (by simp [State.contents, Contents.acquire])
    (funext fun q => by simp [State.contents, Contents.acquire, readReg_acquire, Function.update_apply])

@[simp] theorem contents_writeReg (r : Reg) (v : Nat) : (s.writeReg r v).contents = s.contents.write r v :=
  Contents.ext (by simp [State.contents, Contents.write])
    (funext fun q => by simp [State.contents, Contents.write, readReg_writeReg, Function.update_apply])

@[simp] theorem Contents.held_write (r : Reg) (v : Nat) : (c.write r v).held = c.held := rfl

@[simp] theorem Contents.value_write_same (r : Reg) (v : Nat) : (c.write r v).value r = some v :=
  Function.update_self ..

theorem Contents.value_write_other {r q : Reg} (other : q ≠ r) (v : Nat) : (c.write r v).value q = c.value q :=
  Function.update_of_ne other ..

@[simp] theorem Contents.write_write (r : Reg) (v u : Nat) : (c.write r v).write r u = c.write r u := by
  simp [Contents.write]

/-- A register that had no value has none once it is acquired. -/
theorem Contents.acquire_of_empty {r : Reg} (empty : c.value r = none) :
    c.acquire r = ⟨c.held ++ [r], c.value⟩ := by
  simp [Contents.acquire, ← empty]

/-- Before a run nothing is held, so no register has a value (R33). -/
theorem State.Inv.contents_eq_empty {s : State} (h : s.Inv) (outside : s.seq.active = false) :
    s.contents = Contents.empty := by
  have released := h.released outside
  refine Contents.ext released (funext fun r => ?_)
  have free : r ∉ s.held := by simp [released]
  show s.readReg r = none
  simpa using mt (h.valuesHeld r) free

end Contents

/-! ### Micro-ops that succeed, one after the other -/

/-- The window size of the run, the operands and the contents of a state. -/
structure State.Shows (s : State) (w : Nat) (ops : Operand → Nat) (c : Contents) : Prop where
  window : s.w = w
  operands : ∀ a, s.op a = ops a
  contents : s.contents = c

/-- The micro-op takes the contents `c` to `c'` and moves on, in every state that shows `c` and where the kernel answers
`ok`. -/
def Succeeds (w : Nat) (ops : Operand → Nat) (i : Instr) (c c' : Contents) : Prop :=
  i.isUop = true ∧ ∀ s : State, s.Shows w ops c → s.kernelAnswer = .ok →
    ∃ t, exec i s = .next t ∧ t.seq = s.nextSeq ∧ t.contents = c'

/-- The micro-ops of a list take the contents `c` to `c'`, one after the other. -/
def Issues (w : Nat) (ops : Operand → Nat) : List Instr → Contents → Contents → Prop
  | [], c, c' => c = c'
  | i :: l, c, c' => ∃ d, Succeeds w ops i c d ∧ Issues w ops l d c'

variable {ops : Operand → Nat} {i : Instr} {c c' d : Contents} {t : State}

theorem Issues.append {l l' : List Instr} (first : Issues w ops l c d) (rest : Issues w ops l' d c') :
    Issues w ops (l ++ l') c c' := by
  induction l generalizing c with
  | nil => cases first; exact rest
  | cons i l ih =>
    obtain ⟨e, succeeds, later⟩ := first
    exact ⟨e, succeeds, ih later⟩

theorem Issues.pair {j : Instr} (first : Succeeds w ops i c d) (second : Succeeds w ops j d c') :
    Issues w ops [i, j] c c' :=
  ⟨d, first, c', second, rfl⟩

/-- Blocks that take each of a row of contents to the next take the first to the last. -/
theorem Issues.range {block : Nat → List Instr} {row : Nat → Contents} {n : Nat}
    (each : ∀ k < n, Issues w ops (block k) (row k) (row (k + 1))) :
    Issues w ops ((List.range n).map block).flatten (row 0) (row n) := by
  induction n with
  | zero => rfl
  | succ n ih =>
    rw [List.range_succ, List.map_append, List.flatten_append]
    exact (ih fun k hk => each k (by omega)).append (by simpa using each n (Nat.lt_succ_self n))

/-- A block that is repeated takes each of a row of contents to the next. -/
theorem Issues.replicate {block : List Instr} {row : Nat → Contents} {n : Nat}
    (each : ∀ k < n, Issues w ops block (row k) (row (k + 1))) :
    Issues w ops (List.replicate n block).flatten (row 0) (row n) := by
  simpa using Issues.range (block := fun _ => block) each

section Shows

variable (view : s.Shows w ops c) {r : Reg}
include view

theorem State.Shows.held_iff : r ∈ s.held ↔ r ∈ c.held := by rw [← view.contents]; rfl

theorem State.Shows.readReg_eq : s.readReg r = c.value r := by rw [← view.contents]; rfl

theorem State.Shows.takeTurn : s.takeTurn.Shows w ops c :=
  ⟨view.window, fun a => (op_takeTurn s a).trans (view.operands a), (contents_takeTurn s).trans view.contents⟩

theorem State.Shows.regValue_eq {v : Nat} (value : c.value r = some v) : s.regValue r = v :=
  Machine.regValue_eq (view.readReg_eq.trans value)

end Shows

theorem Succeeds.acquire {r : Reg} (issuable : Issuable w i) (which : acquired i = some r) (free : r ∉ c.held) :
    Succeeds w ops i c (c.acquire r) := by
  obtain ⟨uop, admitted⟩ := issuable
  refine ⟨uop, fun s view ok => ?_⟩
  have run := exec_acquires uop which (view.window ▸ admitted) (mt view.held_iff.1 free) ok
  exact ⟨_, run, by simp, by simp [view.contents]⟩

/-- A computing micro-op succeeds with its value where the registers it names are held, those it reads have values, and
the context and the input of a RED are in the domain of R203. -/
theorem Succeeds.write {r : Reg} {v : Nat} (issuable : Issuable w i) (which : destination i = some r)
    (notSet1 : i ≠ .set1) (modulus : ops .p ≠ 0) (held : ∀ q ∈ named i, q ∈ c.held)
    (populated : ∀ q ∈ sources i, (c.value q).isSome)
    (domain : ∀ q, reduced i = some q → c.value .ctx = some (ctxOf (ops .p)) ∧
      ∃ x, c.value q = some x ∧ x < ops .p * ops .p)
    (value : ∀ s : State, s.Shows w ops c → uopValue i s = v) :
    Succeeds w ops i c (c.write r v) := by
  obtain ⟨uop, admitted⟩ := issuable
  refine ⟨uop, fun s view ok => ?_⟩
  have met : preconditionFault s i = none := by
    refine preconditionFault_eq_none (fun q acq => ?_) (fun q name => view.held_iff.2 (held q name))
      (fun q source => view.readReg_eq ▸ populated q source) fun q red => ?_
    · rw [(destination_named which).1] at acq
      cases acq
    · obtain ⟨ctx, x, input, small⟩ := domain q red
      rw [view.regValue_eq ctx, view.regValue_eq input, view.operands]
      exact ⟨rfl, small⟩
  have run := exec_writes met (view.window ▸ admitted) which notSet1 (fun _ => view.operands .p ▸ modulus) ok
    (value s view)
  exact ⟨_, run, by simp, by simp [view.contents]⟩

/-- A product of two residues, written by the first micro-op and then reduced, leaves its residue (R17, R202). -/
theorem Issues.thenReduce {j : SlotIndex} {a b : Nat} (first : Succeeds w ops i c (c.write (.slot j) (a * b)))
    (red : Issuable w (.redM j)) (left : a < ops .p) (right : b < ops .p) (held : .slot j ∈ c.held)
    (ctxHeld : .ctx ∈ c.held) (ctx : c.value .ctx = some (ctxOf (ops .p))) :
    Issues w ops [i, .redM j] c (c.write (.slot j) (a * b % ops .p)) := by
  have positive : ops .p ≠ 0 := by omega
  have input : (c.write (.slot j) (a * b)).value (.slot j) = some (a * b) := c.value_write_same ..
  have context : (c.write (.slot j) (a * b)).value .ctx = some (ctxOf (ops .p)) :=
    (c.value_write_other (by nofun) _).trans ctx
  have second := Succeeds.write red rfl nofun positive (by simp [named, held, ctxHeld])
    (by simp [sources, context])
    (fun q which => by cases which; exact ⟨context, _, input, Nat.mul_lt_mul'' left right⟩) fun s view =>
      (uopValue_of_reduced (i := .redM j) rfl (view.readReg_eq.trans input) (view.operands .p ▸ positive)).trans
        (by rw [view.operands])
  rw [Contents.write_write] at second
  exact Issues.pair first second

/-! ### The phases of the table build (R152 to R157) -/

/-- The slots that the first `n` micro-ops of phase ALLOC acquire (R152). -/
def slotsBelow (n : Nat) : List Reg := (List.range n).map fun k => .slot (slotIndex k)

/-- The contents while the table is filled: the resources of the build are held, and the slots `M[1]` and those from the
midpoint up to `M[n-1]` have the powers of the base (R158). -/
def Contents.table (w : Nat) (ops : Operand → Nat) (n : Nat) : Contents where
  held := slotsBelow (2 ^ w) ++ [.ctx]
  value
    | .slot k =>
      if k.toNat = 1 ∨ (midSlot w ≤ k.toNat ∧ k.toNat < n) then some (ops .g ^ k.toNat % ops .p) else none
    | .ctx => some (ctxOf (ops .p))
    | .res => none

/-- The contents after the first `n` micro-ops of phase ALLOC (R152). -/
def Contents.slots (n : Nat) : Contents := ⟨slotsBelow n, fun _ => none⟩

theorem Contents.acquire_slots (n : Nat) : (slots n).acquire (.slot (slotIndex n)) = slots (n + 1) := by
  rw [acquire_of_empty _ rfl]
  simp [slots, slotsBelow, List.range_succ]

/-- With the base in `M[1]` and no power in the upper half, the table is as MOD leaves it (R155). -/
theorem Contents.write_base (w : Nat) (ops : Operand → Nat) :
    (((slots (2 ^ w)).acquire .ctx).write .ctx (ctxOf (ops .p))).write (.slot 1#8) (ops .g % ops .p) =
      table w ops (midSlot w) := by
  refine Contents.ext rfl (funext fun r => ?_)
  cases r with
  | slot k =>
    have base : (k.toNat = 1 ∨ midSlot w ≤ k.toNat ∧ k.toNat < midSlot w) ↔ k = 1#8 := by
      rw [BitVec.toNat_eq]
      simp
    by_cases one : k = 1#8
    · simp [write, table, one]
    · simp [write, table, base, one, acquire, slots]
  | res | ctx => simp [write, table, acquire, slots]

/-- The contents in phase TBL_MID, with the value `v` in the midpoint slot (R156). -/
def Contents.middle (w : Nat) (ops : Operand → Nat) (v : Nat) : Contents :=
  (table w ops (midSlot w)).write (.slot (slotIndex (midSlot w))) v

theorem Contents.value_base (w : Nat) (ops : Operand → Nat) (n : Nat) :
    (table w ops n).value (.slot 1#8) = some (ops .g % ops .p) := by
  simp [table]

theorem slot_mem_slotsBelow {k : SlotIndex} {n : Nat} (small : n ≤ 256) : .slot k ∈ slotsBelow n ↔ k.toNat < n := by
  simp only [slotsBelow, List.mem_map, List.mem_range, Reg.slot.injEq]
  constructor
  · rintro ⟨m, below, rfl⟩
    rwa [slotIndex_toNat (by omega)]
  · exact fun below => ⟨k.toNat, below, by simp [slotIndex]⟩

theorem Contents.ctx_mem_table (w : Nat) (ops : Operand → Nat) (n : Nat) : .ctx ∈ (Contents.table w ops n).held :=
  List.mem_append_right _ (List.mem_singleton_self _)

/-- Phase SETUP makes the context of the modulus (R154). -/
theorem setupPhase_issues (positive : ops .p ≠ 0) :
    Issues w ops setupPhase (.slots (2 ^ w)) (((Contents.slots (2 ^ w)).acquire .ctx).write .ctx (ctxOf (ops .p))) := by
  have free : Reg.ctx ∉ slotsBelow (2 ^ w) := by simp [slotsBelow]
  refine Issues.pair (Succeeds.acquire ⟨rfl, rfl⟩ rfl free) ?_
  exact Succeeds.write ⟨rfl, rfl⟩ rfl nofun positive (by simp [named, Contents.acquire]) nofun nofun
    fun s view => by rw [uopValue, view.operands]

section Build

variable (valid : validWindow w = true)
include valid

/-- The table holds CTX and its slots (R158). -/
theorem Contents.mem_held_table {n : Nat} {r : Reg} :
    r ∈ (Contents.table w ops n).held ↔ r = .ctx ∨ ∃ k : SlotIndex, r = .slot k ∧ k.toNat < 2 ^ w := by
  obtain ⟨-, -, small⟩ := midSlot_of_validWindow valid
  cases r with
  | slot k => simp [Contents.table, slot_mem_slotsBelow small]
  | res | ctx => simp [Contents.table, slotsBelow]

theorem Contents.slot_mem_table (ops : Operand → Nat) (n : Nat) {k : Nat} (below : k < 2 ^ w) :
    .slot (slotIndex k) ∈ (Contents.table w ops n).held := by
  obtain ⟨-, -, small⟩ := midSlot_of_validWindow valid
  exact (mem_held_table valid).2 (.inr ⟨_, rfl, by rwa [slotIndex_toNat (by omega)]⟩)

theorem Contents.base_mem_table (ops : Operand → Nat) (n : Nat) : .slot 1#8 ∈ (Contents.table w ops n).held := by
  obtain ⟨two, double, small⟩ := midSlot_of_validWindow valid
  exact slot_mem_table valid ops n (k := 1) (by omega)

/-- A slot that is filled has its power of the base. -/
theorem Contents.value_table (ops : Operand → Nat) (n : Nat) {k : Nat} (below : k < 2 ^ w)
    (filled : k = 1 ∨ midSlot w ≤ k ∧ k < n) :
    (Contents.table w ops n).value (.slot (slotIndex k)) = some (ops .g ^ k % ops .p) := by
  obtain ⟨-, -, small⟩ := midSlot_of_validWindow valid
  simp only [Contents.table, slotIndex_toNat (k := k) (by omega)]
  exact if_pos filled

/-- Filling the next slot of the upper half. -/
theorem Contents.write_table {n : Nat} (above : midSlot w ≤ n) (below : n < 2 ^ w) :
    (Contents.table w ops n).write (.slot (slotIndex n)) (ops .g ^ n % ops .p) = Contents.table w ops (n + 1) := by
  obtain ⟨-, -, small⟩ := midSlot_of_validWindow valid
  have index : (slotIndex n).toNat = n := slotIndex_toNat (by omega)
  refine Contents.ext rfl (funext fun r => ?_)
  by_cases same : r = .slot (slotIndex n)
  · subst same
    rw [value_write_same, value_table valid ops _ below (.inr ⟨above, Nat.lt_succ_self n⟩)]
  · rw [value_write_other _ same]
    cases r with
    | slot k =>
      have other : k.toNat ≠ n := fun e => same (by rw [← e, slotIndex, BitVec.ofNat_toNat, BitVec.setWidth_eq])
      have limit : k.toNat < n + 1 ↔ k.toNat < n := by omega
      simp only [Contents.table, limit]
    | res | ctx => rfl

/-- Phase ALLOC acquires every slot of the table (R152). -/
theorem allocPhase_issues : Issues w ops (allocPhase w) .empty (.slots (2 ^ w)) := by
  obtain ⟨-, -, small⟩ := midSlot_of_validWindow valid
  rw [allocPhase, List.map_eq_flatMap, List.flatMap_def]
  refine Issues.range (row := Contents.slots) fun k below => ⟨_, ?_, Contents.acquire_slots k⟩
  refine Succeeds.acquire (issuable_acqM valid below) rfl ?_
  rw [Contents.slots, slot_mem_slotsBelow (by omega), slotIndex_toNat (by omega)]
  exact Nat.lt_irrefl k

variable (positive : ops .p ≠ 0)
include positive

/-- Phase TBL_MOD puts the base in `M[1]` (R155). -/
theorem mod_issues :
    Issues w ops [.mod] (((Contents.slots (2 ^ w)).acquire .ctx).write .ctx (ctxOf (ops .p)))
      (.table w ops (midSlot w)) := by
  obtain ⟨two, double, small⟩ := midSlot_of_validWindow valid
  have one : Reg.slot 1#8 ∈ slotsBelow (2 ^ w) := (slot_mem_slotsBelow small).2 (show 1 < 2 ^ w by omega)
  refine ⟨_, ?_, Contents.write_base w ops⟩
  exact Succeeds.write ⟨rfl, rfl⟩ rfl nofun positive (by simp [named, Contents.acquire, Contents.slots, one]) nofun
    nofun fun s view => by rw [uopValue, view.operands, view.operands, modulo_of_ne_zero _ positive]

/-- A square-and-reduce of the midpoint slot (R17). -/
theorem squareReduceMid_issues {v : Nat} (residue : v < ops .p) :
    Issues w ops (squareReduceMid w) (.middle w ops v) (.middle w ops (v * v % ops .p)) := by
  obtain ⟨two, double, small⟩ := midSlot_of_validWindow valid
  have held : .slot (slotIndex (midSlot w)) ∈ (Contents.middle w ops v).held :=
    Contents.slot_mem_table valid ops (midSlot w) (by omega)
  have value : (Contents.middle w ops v).value (.slot (slotIndex (midSlot w))) = some v := Contents.value_write_same ..
  have ctx : (Contents.middle w ops v).value .ctx = some (ctxOf (ops .p)) := Contents.value_write_other _ (by nofun) _
  have squared := Issues.thenReduce (c := .middle w ops v)
    (Succeeds.write (issuable_sqrM valid) rfl nofun positive (by simpa [named] using held)
      (by simp [sources, value]) nofun fun s view => by rw [uopValue, view.regValue_eq value])
    (issuable_redM valid (Nat.le_refl _) (by omega)) residue residue held (Contents.ctx_mem_table w ops (midSlot w))
    ctx
  rwa [Contents.middle, Contents.write_write] at squared

/-- Phase TBL_MID squares the base `w - 1` times in the midpoint slot (R156). -/
theorem midPhase_issues :
    Issues w ops (midPhase w) (.table w ops (midSlot w)) (.table w ops (midSlot w + 1)) := by
  obtain ⟨two, double, small⟩ := midSlot_of_validWindow valid
  have mid := Contents.slot_mem_table valid ops (midSlot w) (k := midSlot w) (by omega)
  have base := Contents.value_base w ops (midSlot w)
  have copied : Succeeds w ops (.copy (slotIndex (midSlot w))) (.table w ops (midSlot w))
      (.middle w ops (ops .g ^ 2 ^ 0 % ops .p)) :=
    Succeeds.write (issuable_copy valid) rfl nofun positive
      (by simpa [named, mid] using Contents.base_mem_table valid ops _) (by simp [sources, base]) nofun
      fun s view => by simpa [uopValue] using view.regValue_eq base
  rw [← Contents.write_table valid (Nat.le_refl _) (by omega)]
  refine ⟨_, copied, ?_⟩
  refine Issues.replicate (row := fun n => .middle w ops (ops .g ^ 2 ^ n % ops .p)) fun n _ => ?_
  have pair := squareReduceMid_issues valid positive (Nat.mod_lt (ops .g ^ 2 ^ n) (Nat.pos_of_ne_zero positive))
  rwa [← Nat.mul_mod, ← pow_add, ← Nat.two_mul, ← pow_succ'] at pair

/-- The multiply-reduce of the next slot of the upper half (R157). -/
theorem multiplyReduceSlot_issues {n : Nat} (above : midSlot w < n) (below : n < 2 ^ w) :
    Issues w ops (multiplyReduceSlot n) (.table w ops n) (.table w ops (n + 1)) := by
  have held := Contents.slot_mem_table valid ops n below
  have sourceHeld := Contents.slot_mem_table valid ops n (k := n - 1) (by omega)
  have source := Contents.value_table valid ops n (k := n - 1) (by omega) (by omega)
  have base := Contents.value_base w ops n
  have residue (a : Nat) : a % ops .p < ops .p := Nat.mod_lt a (Nat.pos_of_ne_zero positive)
  have multiplied := Issues.thenReduce (c := .table w ops n)
    (Succeeds.write (issuable_mulM valid above below) rfl nofun positive
      (by simpa [named, held, sourceHeld] using Contents.base_mem_table valid ops _)
      (by simp [sources, source, base]) nofun
      fun s view => by rw [uopValue, view.regValue_eq source, view.regValue_eq base])
    (issuable_redM valid (Nat.le_of_lt above) below) (residue _) (residue _) held (Contents.ctx_mem_table w ops n) rfl
  rwa [← Nat.mul_mod, ← pow_succ, Nat.sub_add_cancel (by omega), Contents.write_table valid (Nat.le_of_lt above) below]
    at multiplied

/-- Phase TBL_UPPER multiplies each power of the upper half from the one before it (R157). -/
theorem upperPhase_issues :
    Issues w ops (upperPhase w) (.table w ops (midSlot w + 1)) (.table w ops (2 ^ w)) := by
  obtain ⟨two, double, small⟩ := midSlot_of_validWindow valid
  have last : 2 ^ w = midSlot w + 1 + (midSlot w - 1) := by omega
  rw [last]
  exact Issues.range (row := fun n => .table w ops (midSlot w + 1 + n)) fun n below =>
    multiplyReduceSlot_issues valid positive (by omega) (by omega)

/-- The build fills the table (R158). -/
theorem buildProgram_issues : Issues w ops (buildProgram w) .empty (.table w ops (2 ^ w)) :=
  ((((allocPhase_issues valid).append (setupPhase_issues positive)).append (mod_issues valid positive)).append
    (midPhase_issues valid positive)).append (upperPhase_issues valid positive)

end Build

/-! ### Runs of the machine through micro-ops that succeed (R72, R120) -/

@[simp] theorem counted_kernel (i : Instr) (s : State) : (counted i s).kernel = s.kernel := by cases i <;> rfl

/-- A micro-op takes one answer of the kernel or none (R13). -/
theorem UopEffect.kernel_eq (effect : UopEffect i s t) : t.kernel = s.kernel ∨ t.kernel = s.kernel.tail := by
  cases effect <;> simp

theorem kernelAnswer_of_kernelOk {n : Nat} (ok : s.kernelOk (n + 1)) : s.kernelAnswer = .ok := by
  rw [State.kernelOk] at ok
  rw [State.kernelAnswer]
  cases hkernel : s.kernel with
  | nil => simp [hkernel] at ok
  | cons answer later =>
    rw [hkernel, List.take_succ_cons, List.replicate_succ, List.cons.injEq] at ok
    exact ok.1

/-- After a micro-op there is at most one answer `ok` less to come. -/
theorem UopEffect.kernelOk (effect : UopEffect i s t) {n : Nat} (ok : s.kernelOk (n + 1)) : t.kernelOk n := by
  unfold State.kernelOk at ok ⊢
  rcases effect.kernel_eq with same | taken
  · rw [same]
    simpa [List.take_take] using congrArg (List.take n) ok
  · rw [taken]
    simpa [List.tail_take_eq_take_tail] using congrArg List.tail ok

/-- The run that began in the state `s` is at entry `n` of its program, with the contents `c` and `k` answers `ok` to
come. -/
structure State.InRun (s : State) (n k : Nat) (c : Contents) (t : State) : Prop where
  inv : t.Inv
  position : t.seq = .run n
  program : t.prog = s.program.map uopWord
  kernel : t.kernelOk k
  view : t.Shows (windowSize (bitLength (s.op .x))) s.op c

/-- The run that begins in the state `s` has its Select step to come, and `k` answers `ok`. -/
structure State.AwaitsSelect (s : State) (k : Nat) (t : State) : Prop where
  inv : t.Inv
  atSelect : t.seq = .select
  params : t.params = s.params
  operands : ∀ a, t.op a = s.op a
  kernel : t.kernelOk k

variable {n k : Nat}

/-- The Select step enters the run (R151). -/
theorem State.AwaitsSelect.step (waits : s.AwaitsSelect k t) (turn : t.enginesTurn) :
    ∃ r, step t = .next r ∧ r.turns = t.turns.tail ∧ s.InRun 0 k .empty r := by
  have contents := waits.inv.contents_eq_empty (by rw [waits.atSelect]; rfl)
  refine ⟨_, step_atSelect turn waits.atSelect, rfl, waits.inv.takeTurn.selectStep waits.atSelect, rfl, ?_,
    waits.kernel, ?_, ?_, ?_⟩
  · simp [State.program, waits.params, waits.operands]
  · simp [waits.operands]
  · simp [waits.operands]
  · simpa using contents

/-- The engine's step at an entry whose micro-op succeeds (R120). -/
theorem State.InRun.step (run : s.InRun n (k + 1) c t) (turn : t.enginesTurn) (entry : s.program[n]? = some i)
    (more : n + 1 < s.program.length) (succeeds : Succeeds (windowSize (bitLength (s.op .x))) s.op i c d) :
    ∃ r, step t = .next r ∧ r.turns = t.turns.tail ∧ s.InRun (n + 1) k d r := by
  obtain ⟨uop, completes⟩ := succeeds
  have word : t.prog[n]? = some (uopWord i) := by simp [run.program, entry]
  obtain ⟨issued, -⟩ := engineIssuesProgramWord t n _ turn run.position word
  have stepped : Machine.step t = exec i t.takeTurn := issued i (decodeUop_uopWord uop)
  obtain ⟨r, ran, position, contents⟩ :=
    completes t.takeTurn run.view.takeTurn (kernelAnswer_of_kernelOk run.kernel)
  have effect := exec_uop_effect uop ran
  obtain ⟨-, -, -, -, -, -, window, program, -, -, turns⟩ := effect.control_fields_eq
  obtain ⟨-, capacity, -⟩ := run.inv.params
  have next := stepped.trans ran
  refine ⟨r, next, turns, stepKeepsInvariant t r run.inv next, ?_, program.trans run.program,
    effect.kernelOk run.kernel, window.trans run.view.window, fun a => ?_, contents⟩
  · have room : n + 1 < t.prog.length := by simpa [run.program] using more
    rw [position, State.nextSeq]
    simp [run.position, room]
  · rw [effect.op_eq a (Nat.le_trans (run.inv.lengths a) capacity), op_takeTurn, run.view.operands]

/-- Where the run that began in `s` is after so many steps of the engine, with the micro-ops of the list `l` to bring
the contents to `c'`: the first step is Select, and then comes one micro-op after the other. -/
def State.Progress (s : State) (l : List Instr) (c' : Contents) : Nat → State → Prop
  | 0, t => s.AwaitsSelect l.length t
  | n + 1, t => ∃ done rest c, l = done ++ rest ∧ done.length = n ∧ s.InRun n rest.length c t ∧
      Issues (windowSize (bitLength (s.op .x))) s.op rest c c'

theorem State.Progress.busy {l : List Instr} : ∀ {e : Nat}, s.Progress l c' e t → t.busy = true
  | 0, waits => by simp [State.busy, waits.atSelect]
  | _ + 1, ⟨_, _, _, _, _, run, _⟩ => by simp [State.busy, run.position]

theorem State.Progress.host {l : List Instr} (ie bw : Bool) (rd : Word) (dr : Nat) (turns : List Turn) :
    ∀ {e : Nat}, s.Progress l c' e t →
      s.Progress l c' e { t with ie := ie, busyWr := bw, rdata := rd, draws := dr, turns := turns }
  | 0, waits => { waits with inv := { waits.inv with } }
  | _ + 1, ⟨done, rest, c, split, here, run, issues⟩ =>
    ⟨done, rest, c, split, here, { run with inv := { run.inv with }, view := { run.view with } }, issues⟩

/-- Each engine step takes the run to the next: Select to the head of the list, and a micro-op past itself. -/
theorem State.Progress.step {l : List Instr} (head : l <+: s.program) (more : l.length < s.program.length)
    (issues : Issues (windowSize (bitLength (s.op .x))) s.op l .empty c') {e : Nat} (before : e < 1 + l.length)
    (progress : s.Progress l c' e t) (turn : t.enginesTurn) :
    ∃ r, step t = .next r ∧ r.turns = t.turns.tail ∧ s.Progress l c' (e + 1) r := by
  cases e with
  | zero =>
    obtain ⟨r, stepped, turns, run⟩ := State.AwaitsSelect.step progress turn
    exact ⟨r, stepped, turns, [], l, _, rfl, rfl, run, issues⟩
  | succ n =>
    obtain ⟨done, rest, c, rfl, rfl, run, issues⟩ := progress
    cases rest with
    | nil =>
      rw [List.append_nil] at before
      omega
    | cons i rest =>
      obtain ⟨d, succeeds, later⟩ := issues
      have entry : s.program[done.length]? = some i := by
        obtain ⟨tail, whole⟩ := head
        simp [← whole]
      have room : done.length + 1 < s.program.length := by
        rw [List.length_append, List.length_cons] at more
        omega
      obtain ⟨r, stepped, turns, run⟩ := run.step turn entry room succeeds
      exact ⟨r, stepped, turns, done ++ [i], rest, d, by simp, by simp, run, later⟩

/-- From an accepted START, micro-ops at the head of the program that succeed one after the other are issued, whatever
the host does between the engine's steps. -/
theorem State.AtStart.reaches_inRun (start : s.AtStart) {l : List Instr} (head : l <+: s.program)
    (more : l.length < s.program.length) (ok : s.kernelOk l.length)
    (issues : Issues (windowSize (bitLength (s.op .x))) s.op l .empty c') :
    ∃ t, reaches (stepsFor s.turns (1 + l.length)) s t ∧ s.InRun l.length 0 c' t := by
  have waits : s.Progress l c' 0 s := ⟨start.inv, start.atSelect, rfl, fun _ => rfl, ok⟩
  obtain ⟨t, reached, progress⟩ := reaches_engine_steps (P := s.Progress l c') (fun _ => State.Progress.busy)
    (fun ie bw rd dr turns _ => State.Progress.host ie bw rd dr turns) (State.Progress.step head more issues)
    (Nat.zero_add _) waits start.noReset
  refine ⟨t, reached, ?_⟩
  rw [Nat.add_comm] at progress
  obtain ⟨done, rest, c, rfl, all, run, issues⟩ := progress
  obtain rfl : rest = [] := by simpa using all
  cases issues
  simpa using run

theorem buildProgram_prefix (s : State) : buildProgram (windowSize (bitLength (s.op .x))) <+: s.program := by
  simp [State.program, issueProgram]

/-- Settles O56: the build is the head of the program, and its phases fill the table. -/
theorem buildFillsTable : Obligations.BuildFillsTable := by
  rintro s w start rfl positive ok
  have valid := windowSize_valid (bitLength (s.op .x))
  have more : (buildProgram (windowSize (bitLength (s.op .x)))).length < s.program.length := by
    simp [State.program, issueProgram, resInitPhase]
  obtain ⟨t, reached, run⟩ :=
    start.reaches_inRun (buildProgram_prefix s) more ok (buildProgram_issues valid positive)
  refine ⟨t, reached, run.position, fun r => ?_, run.view.readReg_eq (r := .ctx), run.view.readReg_eq (r := .res),
    fun _ => run.view.readReg_eq⟩
  rw [run.view.held_iff, Contents.mem_held_table valid]

end Sys2Proof.Machine

/-! ## The windowed exponentiator (43_windowed_exponentiator.md) -/

namespace Sys2Proof.Machine

/-! ### The scan by the bits of the exponent (R174 to R177) -/

section ExponentBits

variable {w d x k r n y : Nat} {st st' : ScanState}

/-- The micro-ops that the scan issues for the bits `n-1 .. 0` of the exponent, flush included. Which digits the bits
come from plays no part (R178 to R183). -/
def scanBelow (w x : Nat) : Nat → ScanState → List Instr
  | 0, st => flushOps st
  | n + 1, st => (scanBit w (bit x n) st).2 ++ scanBelow w x n (scanBit w (bit x n) st).1

/-- The scan state with its digit registers cleared: what R178 to R183 look at. -/
def ScanState.window (st : ScanState) : ScanState :=
  { st with digitIndex := -1, digitBuffer := 0, remainingBitsInDigit := 0 }

theorem appendBit_full (full : st.windowBitCount + 1 = w) (y : Nat) :
    appendBit w y st = ({ st with windowAccum := 0, windowBitCount := 0, mode := .squaring },
      fullWindow w (st.windowAccum * 2 + y)) := if_pos full

theorem appendBit_open (room : st.windowBitCount + 1 ≠ w) (y : Nat) :
    appendBit w y st = ({ st with
      windowAccum := st.windowAccum * 2 + y, windowBitCount := st.windowBitCount + 1, mode := .accumulating }, []) :=
  if_neg room

/-- A 0 before the first 1 does nothing (R178). -/
theorem scanBit_skips (mode : st.mode = .skipLeadingZeros) : scanBit w 0 st = (st, []) := by
  simp [scanBit, mode]

/-- A 0 between windows squares (R179). -/
theorem scanBit_squares (mode : st.mode = .squaring) : scanBit w 0 st = (st, squareReduceRes) := by
  simp [scanBit, mode]

/-- Any other bit goes to the window (R178 to R180). -/
theorem scanBit_appends (bit : st.mode = .accumulating ∨ y ≠ 0) : scanBit w y st = appendBit w y st := by
  unfold scanBit
  split
  next mode => exact if_neg (bit.resolve_left (by simp [mode]))
  next mode => exact if_neg (bit.resolve_left (by simp [mode]))
  next => rfl

/-- The three things that the scan does with a bit (R178 to R180). -/
theorem scanBit_cases (st : ScanState) (y : Nat) :
    (st.mode = .skipLeadingZeros ∧ y = 0) ∨ (st.mode = .squaring ∧ y = 0) ∨ (st.mode = .accumulating ∨ y ≠ 0) := by
  cases st.mode <;> simp [em]

theorem appendBit_window (w y : Nat) (st : ScanState) :
    appendBit w y st.window = ((appendBit w y st).1.window, (appendBit w y st).2) := by
  by_cases full : st.windowBitCount + 1 = w
  · rw [appendBit_full full, appendBit_full (st := st.window) full]; rfl
  · rw [appendBit_open full, appendBit_open (st := st.window) full]; rfl

/-- The scan of a bit neither reads nor writes the digit registers. -/
theorem scanBit_window (w y : Nat) (st : ScanState) :
    scanBit w y st.window = ((scanBit w y st).1.window, (scanBit w y st).2) := by
  rcases scanBit_cases st y with ⟨mode, rfl⟩ | ⟨mode, rfl⟩ | appends
  · rw [scanBit_skips mode, scanBit_skips (st := st.window) mode]
  · rw [scanBit_squares mode, scanBit_squares (st := st.window) mode]
  · rw [scanBit_appends appends, scanBit_appends (st := st.window) appends, appendBit_window]

theorem flushOps_window (st : ScanState) : flushOps st.window = flushOps st := rfl

theorem scanBelow_window (w x n : Nat) (st : ScanState) : scanBelow w x n st.window = scanBelow w x n st := by
  induction n generalizing st with
  | zero => exact flushOps_window st
  | succ n ih => rw [scanBelow, scanBelow, scanBit_window, ih]

/-- The digit registers with `k` digits of the exponent to load and `r` bits of the last one to take (R174). -/
structure DigitRegs (d x k r : Nat) (st : ScanState) : Prop where
  index : st.digitIndex = (k : Int) - 1
  remaining : st.remainingBitsInDigit = r
  fits : r ≤ d
  buffer : st.digitBuffer = x / 2 ^ (d * k) % 2 ^ r * 2 ^ (d - r)

/-- Loading a digit leaves all of its bits to take (R174, R175). -/
theorem loadDigit_regs (regs : DigitRegs d x (k + 1) 0 st) : DigitRegs d x k d (loadDigit d x st) where
  index := by
    show st.digitIndex - 1 = _
    rw [regs.index]
    omega
  remaining := rfl
  fits := Nat.le_refl d
  buffer := by
    have number : st.digitIndex.toNat = k := by rw [regs.index]; omega
    show digit d x st.digitIndex.toNat = _
    rw [number, digit, Nat.sub_self, pow_zero, Nat.mul_one]

/-- Taking a bit takes the next one of the exponent (R174). -/
theorem shiftDigit_regs (regs : DigitRegs d x k (r + 1) st) :
    (shiftDigit d st).1 = bit x (d * k + r) ∧ DigitRegs d x k r (shiftDigit d st).2 := by
  obtain ⟨index, remaining, fits, buffer⟩ := regs
  obtain ⟨m, rfl⟩ : ∃ m, d = r + 1 + m := ⟨d - (r + 1), by omega⟩
  rw [Nat.add_sub_cancel_left] at buffer
  have top : r + 1 + m - 1 = r + m := by omega
  have below : r + 1 + m - r = m + 1 := by omega
  refine ⟨?_, index, by simp [shiftDigit, remaining], by omega, ?_⟩
  · rw [shiftDigit, bit, bit, buffer, top, pow_add 2 r m, Nat.mul_div_mul_right _ _ (by positivity), pow_succ,
      Nat.mod_mul_right_div_self, Nat.mod_mod, Nat.div_div_eq_div_mul, ← pow_add]
  · show st.digitBuffer * 2 % 2 ^ (r + 1 + m) = _
    rw [buffer, below, Nat.mul_assoc, ← pow_succ, Nat.add_assoc r 1 m, Nat.add_comm 1 m, pow_add 2 r (m + 1),
      Nat.mul_mod_mul_right, Nat.mod_mod_of_dvd _ (pow_dvd_pow 2 (Nat.le_succ r))]

/-- The bits of the exponent still to take are `n-1 .. 0`. -/
def BitsToCome (d x n : Nat) (st : ScanState) : Prop := ∃ k r, n = d * k + r ∧ DigitRegs d x k r st

/-- After the last bit the exponent ends (R174). -/
theorem nextBit_of_no_bits (digits : 1 ≤ d) (bits : BitsToCome d x 0 st) : nextBit d x st = none := by
  obtain ⟨k, r, left, regs⟩ := bits
  obtain ⟨load, rfl⟩ := Nat.add_eq_zero_iff.1 left.symm
  obtain rfl : k = 0 := (Nat.mul_eq_zero.1 load).resolve_left (Nat.ne_of_gt digits)
  simp [nextBit, regs.remaining, regs.index]

/-- The next bit is the highest of those to come, whether or not a digit has to be loaded for it (R174). -/
theorem nextBit_of_bits (digits : 1 ≤ d) (bits : BitsToCome d x (n + 1) st) :
    ∃ st', nextBit d x st = some (bit x n, st') ∧ BitsToCome d x n st' ∧ st'.window = st.window := by
  obtain ⟨k, r, left, regs⟩ := bits
  cases r with
  | succ r =>
    obtain ⟨taken, regs'⟩ := shiftDigit_regs regs
    obtain rfl : n = d * k + r := by omega
    exact ⟨_, by simp [nextBit, regs.remaining, ← taken], ⟨k, r, rfl, regs'⟩, rfl⟩
  | zero =>
    cases k with
    | zero => simp at left
    | succ k =>
      obtain ⟨e, rfl⟩ : ∃ e, d = e + 1 := ⟨d - 1, by omega⟩
      obtain ⟨taken, regs'⟩ := shiftDigit_regs (loadDigit_regs regs)
      have number : n = (e + 1) * k + e := by
        rw [Nat.mul_succ] at left
        omega
      subst number
      have digit : ¬ st.digitIndex < 0 := by rw [regs.index]; omega
      exact ⟨_, by simp [nextBit, regs.remaining, digit, ← taken], ⟨k, e, rfl, regs'⟩, rfl⟩

/-- The scan of a bit leaves the digit registers. -/
theorem scanBit_regs (w y : Nat) (regs : DigitRegs d x k r st) : DigitRegs d x k r (scanBit w y st).1 := by
  rcases scanBit_cases st y with ⟨mode, rfl⟩ | ⟨mode, rfl⟩ | appends
  · rwa [scanBit_skips mode]
  · rwa [scanBit_squares mode]
  · rw [scanBit_appends appends]
    by_cases full : st.windowBitCount + 1 = w
    · rw [appendBit_full full]
      exact { regs with }
    · rw [appendBit_open full]
      exact { regs with }

theorem scanLoop_of_none {fuel : Nat} (noBit : nextBit d x st = none) :
    (scanLoop d x w (fuel + 1) st).2 = flushOps st := by
  rw [scanLoop, noBit]

theorem scanLoop_of_some {fuel : Nat} (taken : nextBit d x st = some (y, st')) :
    (scanLoop d x w (fuel + 1) st).2 = (scanBit w y st').2 ++ (scanLoop d x w fuel (scanBit w y st').1).2 := by
  rw [scanLoop, taken]

/-- With fuel for the bits to come, the loop scans them and flushes. -/
theorem scanLoop_eq_scanBelow (digits : 1 ≤ d) {fuel : Nat} (enough : n < fuel) (bits : BitsToCome d x n st) :
    (scanLoop d x w fuel st).2 = scanBelow w x n st := by
  induction fuel generalizing n st with
  | zero => exact absurd enough (Nat.not_lt_zero n)
  | succ fuel ih =>
    cases n with
    | zero => exact scanLoop_of_none (nextBit_of_no_bits digits bits)
    | succ n =>
      obtain ⟨st', taken, ⟨k, r, left, regs⟩, same⟩ := nextBit_of_bits digits bits
      have later := ih (by omega) ⟨k, r, left, scanBit_regs w (bit x n) regs⟩
      rw [scanLoop_of_some taken, later, ← scanBelow_window w x (n + 1) st, ← same, scanBelow_window, scanBelow]

/-- A value is below `2^b` for its bit length `b` (R15). -/
theorem lt_two_pow_bitLength (v : Nat) : v < 2 ^ bitLength v := by
  unfold bitLength
  split
  next zero => simp [zero]
  next => exact Nat.lt_log2_self

/-- The digits in use have all bits of the exponent (R175). -/
theorem bitLength_le_usedDigits (digits : 1 ≤ d) (x : Nat) : bitLength x ≤ d * usedDigits d x := by
  have rounded := Nat.lt_mul_div_succ (bitLength x + (d - 1)) digits
  rw [Nat.mul_succ] at rounded
  rw [usedDigits, ceilDiv]
  omega

/-- The padding of the first digit is skipped (R178, R177). -/
theorem scanBelow_padding (w x m : Nat) :
    scanBelow w x (bitLength x + m) .initial = scanBelow w x (bitLength x) .initial := by
  induction m with
  | zero => rfl
  | succ m ih =>
    have above : x < 2 ^ (bitLength x + m) :=
      Nat.lt_of_lt_of_le (lt_two_pow_bitLength x) (Nat.pow_le_pow_right (by decide) (Nat.le_add_right _ m))
    have padding : bit x (bitLength x + m) = 0 := by rw [bit, Nat.div_eq_of_lt above]
    rw [← Nat.add_assoc, scanBelow, padding, scanBit_skips rfl, List.nil_append, ih]

/-- The scan takes the bits of the exponent, whatever the width of the digits they are loaded in (R174 to R177). -/
theorem runScan_eq_scanBelow (digits : 1 ≤ d) (w x : Nat) :
    (runScan d x w).2 = scanBelow w x (bitLength x) .initial := by
  have bits : BitsToCome d x (d * usedDigits d x) (scanStart d x) :=
    ⟨usedDigits d x, 0, rfl, rfl, rfl, Nat.zero_le d, by simp [scanStart, Nat.mod_one]⟩
  have padded : d * usedDigits d x = bitLength x + (d * usedDigits d x - bitLength x) :=
    (Nat.add_sub_cancel' (bitLength_le_usedDigits digits x)).symm
  rw [runScan, scanLoop_eq_scanBelow digits (by rw [Nat.mul_comm d]; exact Nat.lt_succ_self _) bits,
    ← scanBelow_window, padded]
  exact scanBelow_padding w x _

/-- Settles O54: for both widths the scan is that of the exponent's bits. -/
theorem digitWidthUnobservable : Obligations.DigitWidthUnobservable := by
  intro d e x w digitsD digitsE
  rw [runScan_eq_scanBelow digitsD, runScan_eq_scanBelow digitsE]

end ExponentBits

/-! ### The squarings and reductions of a program (R187, R208) -/

section Counts

variable {w x n : Nat} {st : ScanState} {l l' : List Instr}

theorem countP_isSqr_fullWindow (w j : Nat) : (fullWindow w j).countP isSqr = w := by
  have square : squareReduceRes.countP isSqr = 1 := rfl
  have multiply : (multiplyReduceRes j).countP isSqr = 0 := rfl
  simp [fullWindow, List.countP_flatten, square, multiply]

/-- An open window has a squaring to come for each of its bits (R180, R181). -/
theorem countP_isSqr_appendBit (w y : Nat) (st : ScanState) :
    (appendBit w y st).2.countP isSqr + (appendBit w y st).1.windowBitCount = st.windowBitCount + 1 := by
  by_cases full : st.windowBitCount + 1 = w
  · rw [appendBit_full full, countP_isSqr_fullWindow]
    exact full.symm
  · rw [appendBit_open full]
    exact Nat.zero_add _

theorem appendBit_mode (w y : Nat) (st : ScanState) : (appendBit w y st).1.mode ≠ .skipLeadingZeros := by
  by_cases full : st.windowBitCount + 1 = w
  · rw [appendBit_full full]; nofun
  · rw [appendBit_open full]; nofun

/-- From the first 1 on, a bit is squared for at once or in its window (R179 to R181). -/
theorem countP_isSqr_scanBit {y : Nat} (begun : st.mode = .skipLeadingZeros → y ≠ 0) :
    (scanBit w y st).2.countP isSqr + (scanBit w y st).1.windowBitCount = st.windowBitCount + 1 ∧
      (scanBit w y st).1.mode ≠ .skipLeadingZeros := by
  rcases scanBit_cases st y with ⟨mode, rfl⟩ | ⟨mode, rfl⟩ | appends
  · exact absurd rfl (begun mode)
  · rw [scanBit_squares mode]
    exact ⟨Nat.add_comm 1 _, by simp [mode]⟩
  · rw [scanBit_appends appends]
    exact ⟨countP_isSqr_appendBit w y st, appendBit_mode w y st⟩

theorem countP_isSqr_flushStep (a c t : Nat) : (flushStep a c t).countP isSqr = 1 := by
  unfold flushStep
  split <;> rfl

/-- The flush squares for each bit of the window that is left open (R183). -/
theorem countP_isSqr_flushOps (inv : WindowInv w st) : (flushOps st).countP isSqr = st.windowBitCount := by
  cases mode : st.mode with
  | accumulating => simp [flushOps, mode, List.countP_flatten, Function.comp_def, countP_isSqr_flushStep]
  | skipLeadingZeros | squaring => simp [flushOps, mode, inv.closed]

/-- From the first 1 of the exponent on, the scan squares once for each bit. -/
theorem countP_isSqr_scanBelow (valid : validWindow w = true) (inv : WindowInv w st)
    (begun : st.mode = .skipLeadingZeros → ∀ m, n = m + 1 → bit x m ≠ 0) :
    (scanBelow w x n st).countP isSqr = st.windowBitCount + n := by
  induction n generalizing st with
  | zero => exact countP_isSqr_flushOps inv
  | succ n ih =>
    obtain ⟨inv', -⟩ := scanBit_spec valid inv (y := bit x n) (Nat.mod_lt _ (by decide))
    obtain ⟨squared, begun'⟩ := countP_isSqr_scanBit (w := w) fun mode => begun mode n rfl
    rw [scanBelow, List.countP_append, ih inv' fun mode => absurd mode begun', ← Nat.add_assoc, squared,
      Nat.add_right_comm, Nat.add_assoc]

/-- The top bit of a value is not 0 (R15). -/
theorem bit_top (top : bitLength x = n + 1) : bit x n ≠ 0 := by
  have above := lt_two_pow_bitLength x
  have below : 2 ^ n ≤ x := by
    by_contra small
    have := bitLength_le (Nat.lt_of_not_le small)
    omega
  rw [top, pow_succ] at above
  rw [bit, Nat.div_eq_of_lt_le (k := 1) (by omega) (by omega)]
  decide

theorem initial_windowInv (valid : validWindow w = true) : WindowInv w .initial :=
  { scanStart_windowInv valid 1 0 with }

/-- The micro-ops have one reduction for each squaring and each multiplication (R208). -/
def ReducesProducts (l : List Instr) : Prop := l.countP isRed = l.countP isSqr + l.countP isMul

theorem ReducesProducts.append (first : ReducesProducts l) (rest : ReducesProducts l') :
    ReducesProducts (l ++ l') := by
  unfold ReducesProducts at first rest ⊢
  simp only [List.countP_append]
  omega

theorem ReducesProducts.flatten {ls : List (List Instr)} (each : ∀ l ∈ ls, ReducesProducts l) :
    ReducesProducts ls.flatten := by
  induction ls with
  | nil => rfl
  | cons l ls ih =>
    obtain ⟨first, rest⟩ := List.forall_mem_cons.1 each
    exact first.append (ih rest)

theorem fullWindow_reducesProducts (w j : Nat) : ReducesProducts (fullWindow w j) := by
  have square : ReducesProducts squareReduceRes := rfl
  have multiply : ReducesProducts (multiplyReduceRes j) := rfl
  exact .append (.flatten fun _ copy => List.eq_of_mem_replicate copy ▸ square) multiply

theorem flushOps_reducesProducts (st : ScanState) : ReducesProducts (flushOps st) := by
  cases mode : st.mode with
  | accumulating =>
    simp only [flushOps, mode]
    refine .flatten (List.forall_mem_map.2 fun t _ => ?_)
    unfold flushStep
    split <;> rfl
  | skipLeadingZeros | squaring => simp only [flushOps, mode]; rfl

theorem scanBit_reducesProducts (w y : Nat) (st : ScanState) : ReducesProducts (scanBit w y st).2 := by
  rcases scanBit_cases st y with ⟨mode, rfl⟩ | ⟨mode, rfl⟩ | appends
  · rw [scanBit_skips mode]; rfl
  · rw [scanBit_squares mode]; rfl
  · rw [scanBit_appends appends]
    by_cases full : st.windowBitCount + 1 = w
    · rw [appendBit_full full]
      exact fullWindow_reducesProducts ..
    · rw [appendBit_open full]; rfl

theorem scanBelow_reducesProducts (w x n : Nat) (st : ScanState) : ReducesProducts (scanBelow w x n st) := by
  induction n generalizing st with
  | zero => exact flushOps_reducesProducts st
  | succ n ih => exact (scanBit_reducesProducts w _ st).append (ih _)

/-- Settles O52: the build's counts, and those of the scan, which starts at the exponent's top bit. -/
theorem programCounts : Obligations.ProgramCounts := by
  intro d x w digits size
  have valid : validWindow w = true := size ▸ windowSize_valid _
  obtain ⟨low, high⟩ : 2 ≤ w ∧ w ≤ 8 := by simpa [validWindow] using valid
  obtain ⟨-, -, squarings, multiplications, reductions, -⟩ := buildLength w low high
  have build : ReducesProducts (buildProgram w) := by rw [ReducesProducts, squarings, multiplications, reductions]
  have scan := scanBelow_reducesProducts w x (bitLength x) .initial
  have scanned : (scanBelow w x (bitLength x) .initial).countP isSqr = bitLength x :=
    (countP_isSqr_scanBelow valid (initial_windowInv valid) fun _ _ => bit_top).trans (Nat.zero_add _)
  rw [issueProgram, runScan_eq_scanBelow digits]
  have init : ReducesProducts resInitPhase := rfl
  have finish : ReducesProducts finishPhase := rfl
  refine ⟨?_, ((build.append init).append scan).append finish⟩
  have initSquarings : resInitPhase.countP isSqr = 0 := rfl
  have finishSquarings : finishPhase.countP isSqr = 0 := rfl
  simp only [List.countP_append, squarings, scanned, initSquarings, finishSquarings, Nat.add_zero]

end Counts

/-! ### The contents of the datapath along the scan (R188) -/

section Power

variable {w x n e j v : Nat} {ops : Operand → Nat} {c : Contents} {st : ScanState} {i : Instr}

/-- The contents during the scan: the table is full, RES is held, and the accumulator has the value `v`. -/
def Contents.power (w : Nat) (ops : Operand → Nat) (v : Nat) : Contents :=
  ((table w ops (2 ^ w)).acquire .res).write .res v

theorem Contents.power_res (w : Nat) (ops : Operand → Nat) (v : Nat) : (power w ops v).value .res = some v :=
  value_write_same ..

@[simp] theorem Contents.write_power (w : Nat) (ops : Operand → Nat) (v u : Nat) :
    (power w ops v).write .res u = power w ops u :=
  write_write ..

theorem Contents.power_other {r : Reg} (other : r ≠ .res) (ops : Operand → Nat) (v : Nat) :
    (power w ops v).value r = (table w ops (2 ^ w)).value r :=
  (value_write_other _ other v).trans (Function.update_of_ne other ..)

theorem Contents.mem_power {r : Reg} (held : r ∈ (table w ops (2 ^ w)).held ∨ r = .res) :
    r ∈ (power w ops v).held := by
  simpa [power, acquire] using held

/-- Outside a window no bit is waiting (R179). -/
theorem WindowInv.empty (inv : WindowInv w st) (closed : st.mode ≠ .accumulating) :
    st.windowBitCount = 0 ∧ st.windowAccum = 0 := by
  have bounded := inv.bounded
  rw [inv.closed closed] at bounded ⊢
  exact ⟨rfl, Nat.lt_one_iff.1 bounded⟩

/-- A window that a bit fills has a value of the upper half of the table (R181, R185). -/
theorem WindowInv.full_upper (inv : WindowInv w st) (full : st.windowBitCount + 1 = w) {y : Nat} (isBit : y < 2)
    (appends : st.mode = .accumulating ∨ y ≠ 0) :
    midSlot w ≤ st.windowAccum * 2 + y ∧ st.windowAccum * 2 + y < 2 ^ w := by
  have bounded := inv.bounded
  rw [midSlot, ← full, Nat.add_sub_cancel, pow_succ]
  refine ⟨?_, by omega⟩
  by_cases mode : st.mode = .accumulating
  · have := inv.leading mode
    omega
  · obtain ⟨count, -⟩ := inv.empty mode
    have := appends.resolve_left mode
    rw [count, pow_zero]
    omega

/-- The bits of a value from bit `m` on, by those above and bit `m` (R15). -/
theorem div_two_pow_eq (v m : Nat) : v / 2 ^ m = v / 2 ^ (m + 1) * 2 + bit v m := by
  rw [bit, pow_succ, ← Nat.div_div_eq_div_mul, Nat.mul_comm, Nat.div_add_mod]

/-- A product of two residues, written to the accumulator by the first micro-op and then reduced there, leaves its
residue (R17, R202). -/
theorem Issues.accumulate {a b : Nat} (first : Succeeds w ops i (.power w ops v) (.power w ops (a * b)))
    (left : a < ops .p) (right : b < ops .p) :
    Issues w ops [i, .redRes] (.power w ops v) (.power w ops (a * b % ops .p)) := by
  have positive : ops .p ≠ 0 := by omega
  have input := Contents.power_res w ops (a * b)
  have ctx : (Contents.power w ops (a * b)).value .ctx = some (ctxOf (ops .p)) :=
    Contents.power_other (r := .ctx) nofun ops _
  have held : Reg.res ∈ (Contents.power w ops (a * b)).held := Contents.mem_power (.inr rfl)
  have ctxHeld : Reg.ctx ∈ (Contents.power w ops (a * b)).held :=
    Contents.mem_power (.inl (Contents.ctx_mem_table w ops _))
  have second : Succeeds w ops .redRes (.power w ops (a * b)) _ :=
    Succeeds.write ⟨rfl, rfl⟩ rfl nofun positive (by simp [named, held, ctxHeld]) (by simp [sources, input, ctx])
      (fun _ which => by cases which; exact ⟨ctx, _, input, Nat.mul_lt_mul'' left right⟩) fun s view =>
      (uopValue_of_reduced rfl (view.readReg_eq.trans input) (view.operands .p ▸ positive)).trans
        (by rw [view.operands])
  rw [Contents.write_power] at second
  exact Issues.pair first second

section Scan

variable (valid : validWindow w = true) (positive : ops .p ≠ 0)
include positive

/-- A square-and-reduce of the accumulator doubles the exponent (R17). -/
theorem squareReduceRes_issues (e : Nat) :
    Issues w ops squareReduceRes (.power w ops (ops .g ^ e % ops .p)) (.power w ops (ops .g ^ (e * 2) % ops .p)) := by
  have value := Contents.power_res w ops (ops .g ^ e % ops .p)
  have residue := Nat.mod_lt (ops .g ^ e) (Nat.pos_of_ne_zero positive)
  have square : Succeeds w ops .sqrRes (.power w ops (ops .g ^ e % ops .p)) _ :=
    Succeeds.write ⟨rfl, rfl⟩ rfl nofun positive
    (by simpa [named] using Contents.mem_power (.inr rfl)) (by simp [sources, value]) nofun
    fun s view => by rw [uopValue, view.regValue_eq value]
  rw [Contents.write_power] at square
  have pair := Issues.accumulate square residue residue
  rwa [← Nat.mul_mod, ← pow_add, ← Nat.mul_two] at pair

/-- Phase RES_INIT puts 1 in the accumulator (R172). -/
theorem resInitPhase_issues :
    Issues w ops resInitPhase (.table w ops (2 ^ w)) (.power w ops (ops .g ^ 0 % ops .p)) := by
  have free : Reg.res ∉ (Contents.table w ops (2 ^ w)).held := by simp [Contents.table, slotsBelow]
  refine Issues.pair (Succeeds.acquire ⟨rfl, rfl⟩ rfl free) ⟨rfl, fun s view _ => ?_⟩
  have held : Reg.res ∈ s.held := view.held_iff.2 (by simp [Contents.acquire])
  have met : preconditionFault s .set1 = none :=
    preconditionFault_eq_none nofun (by simp [named, held]) nofun nofun
  refine ⟨_, exec_uop_completes rfl rfl met, rfl, ?_⟩
  have one : modulo 1 (s.op .p) = 1 % ops .p := by rw [view.operands, modulo_of_ne_zero _ positive]
  simp [uopBody, infallible, one, view.contents, Contents.power]

include valid

/-- A multiply-reduce of the accumulator by a slot with a value adds to the exponent (R17, R185). -/
theorem multiplyReduceRes_issues (e : Nat) (populated : j = 1 ∨ midSlot w ≤ j ∧ j < 2 ^ w) :
    Issues w ops (multiplyReduceRes j) (.power w ops (ops .g ^ e % ops .p))
      (.power w ops (ops .g ^ (e + j) % ops .p)) := by
  obtain ⟨two, double, small⟩ := midSlot_of_validWindow valid
  have below : j < 2 ^ w := by omega
  have residue (a : Nat) : a % ops .p < ops .p := Nat.mod_lt a (Nat.pos_of_ne_zero positive)
  have value := Contents.power_res w ops (ops .g ^ e % ops .p)
  have entry : (Contents.power w ops (ops .g ^ e % ops .p)).value (.slot (slotIndex j)) = some (ops .g ^ j % ops .p) :=
    (Contents.power_other (r := .slot _) nofun ops _).trans (Contents.value_table valid ops _ below (by omega))
  have held : .slot (slotIndex j) ∈ (Contents.power w ops (ops .g ^ e % ops .p)).held :=
    Contents.mem_power (.inl (Contents.slot_mem_table valid ops _ below))
  have multiply : Succeeds w ops (.mulRes (slotIndex j)) (.power w ops (ops .g ^ e % ops .p)) _ :=
    Succeeds.write (issuable_mulRes valid populated) rfl nofun positive
    (by simpa [named, held] using Contents.mem_power (.inr rfl)) (by simp [sources, value, entry]) nofun
    fun s view => by rw [uopValue, view.regValue_eq value, view.regValue_eq entry]
  rw [Contents.write_power] at multiply
  have pair := Issues.accumulate multiply (residue _) (residue _)
  rwa [← Nat.mul_mod, ← pow_add] at pair

/-- A full window with value `j` shifts the exponent by the window and adds `j` (R181). -/
theorem fullWindow_issues (e : Nat) (upper : midSlot w ≤ j ∧ j < 2 ^ w) :
    Issues w ops (fullWindow w j) (.power w ops (ops .g ^ e % ops .p))
      (.power w ops (ops .g ^ (e * 2 ^ w + j) % ops .p)) := by
  refine Issues.append ?_ (multiplyReduceRes_issues valid positive _ (.inr upper))
  have squarings := Issues.replicate (block := squareReduceRes)
    (row := fun k => .power w ops (ops .g ^ (e * 2 ^ k) % ops .p)) (n := w) fun k _ => by
      simpa only [pow_succ, Nat.mul_assoc] using squareReduceRes_issues (w := w) positive (e * 2 ^ k)
  simpa only [pow_zero, Nat.mul_one] using squarings

/-- A step of the flush appends a bit to the exponent (R183). -/
theorem flushStep_issues (e a : Nat) {m k : Nat} :
    Issues w ops (flushStep a (m + 1 + k) k) (.power w ops (ops .g ^ e % ops .p))
      (.power w ops (ops .g ^ (e * 2 + bit a m) % ops .p)) := by
  refine Issues.append (squareReduceRes_issues positive e) ?_
  have which : m + 1 + k - 1 - k = m := by omega
  rw [which]
  split
  next set =>
    rw [set]
    exact multiplyReduceRes_issues valid positive _ (.inl rfl)
  next clear =>
    have zero : bit a m = 0 := by
      have : bit a m < 2 := Nat.mod_lt _ (by decide)
      omega
    rw [zero]
    rfl

/-- The flush appends the bits of the window that is left open (R183, R189). -/
theorem flushOps_issues (inv : WindowInv w st) (e : Nat) :
    Issues w ops (flushOps st) (.power w ops (ops .g ^ e % ops .p))
      (.power w ops (ops .g ^ (e * 2 ^ st.windowBitCount + st.windowAccum) % ops .p)) := by
  have bounded := inv.bounded
  cases mode : st.mode with
  | accumulating =>
    have steps := Issues.range (w := w) (ops := ops) (block := flushStep st.windowAccum st.windowBitCount)
      (row := fun k => .power w ops
        (ops .g ^ (e * 2 ^ k + st.windowAccum / 2 ^ (st.windowBitCount - k)) % ops .p))
      (n := st.windowBitCount) fun k below => by
        obtain ⟨m, count⟩ : ∃ m, st.windowBitCount = m + 1 + k := ⟨st.windowBitCount - (k + 1), by omega⟩
        have now : m + 1 + k - k = m + 1 := by omega
        have next : m + 1 + k - (k + 1) = m := by omega
        have appended : (e * 2 ^ k + st.windowAccum / 2 ^ (m + 1)) * 2 + bit st.windowAccum m =
            e * 2 ^ (k + 1) + st.windowAccum / 2 ^ m := by
          rw [div_two_pow_eq st.windowAccum m]
          ring
        rw [count, now, next, ← appended]
        exact flushStep_issues valid positive _ _
    simpa [flushOps, mode, Nat.div_eq_of_lt bounded] using steps
  | skipLeadingZeros | squaring =>
    obtain ⟨count, accum⟩ := inv.empty (by simp [mode])
    simp [flushOps, mode, Issues, count, accum]

/-- The scan of a bit closes a window or leaves it open; the exponent so far, with the bits of the window, goes from
`u` to `2u + y` (R178 to R181). -/
theorem scanBit_issues (inv : WindowInv w st) {y : Nat} (isBit : y < 2)
    (leading : st.mode = .skipLeadingZeros → e = 0) :
    ∃ f, Issues w ops (scanBit w y st).2 (.power w ops (ops .g ^ e % ops .p)) (.power w ops (ops .g ^ f % ops .p)) ∧
      f * 2 ^ (scanBit w y st).1.windowBitCount + (scanBit w y st).1.windowAccum =
        (e * 2 ^ st.windowBitCount + st.windowAccum) * 2 + y ∧
      ((scanBit w y st).1.mode = .skipLeadingZeros → f = 0) := by
  rcases scanBit_cases st y with ⟨mode, rfl⟩ | ⟨mode, rfl⟩ | appends
  · obtain ⟨count, accum⟩ := inv.empty (by simp [mode])
    rw [scanBit_skips mode]
    exact ⟨e, rfl, by simp [count, accum, leading mode], leading⟩
  · obtain ⟨count, accum⟩ := inv.empty (by simp [mode])
    rw [scanBit_squares mode]
    exact ⟨e * 2, squareReduceRes_issues positive e, by simp [count, accum], by simp [mode]⟩
  · rw [scanBit_appends appends]
    by_cases full : st.windowBitCount + 1 = w
    · have upper := inv.full_upper full isBit appends
      rw [appendBit_full full]
      refine ⟨_, fullWindow_issues valid positive e upper, ?_, nofun⟩
      show (e * 2 ^ w + _) * 2 ^ 0 + 0 = _
      rw [← full]
      ring
    · rw [appendBit_open full]
      refine ⟨e, rfl, ?_, nofun⟩
      show e * 2 ^ (st.windowBitCount + 1) + (st.windowAccum * 2 + y) = _
      ring

/-- With the bits of the exponent above bit `n-1` in the accumulator and the open window, the scan of the bits below
leaves the power (R188). -/
theorem scanBelow_issues (inv : WindowInv w st) (leading : st.mode = .skipLeadingZeros → e = 0)
    (above : x / 2 ^ n = e * 2 ^ st.windowBitCount + st.windowAccum) :
    Issues w ops (scanBelow w x n st) (.power w ops (ops .g ^ e % ops .p)) (.power w ops (ops .g ^ x % ops .p)) := by
  induction n generalizing st e with
  | zero =>
    rw [pow_zero, Nat.div_one] at above
    rw [above]
    exact flushOps_issues valid positive inv e
  | succ n ih =>
    have isBit : bit x n < 2 := Nat.mod_lt _ (by decide)
    obtain ⟨inv', -⟩ := scanBit_spec valid inv isBit
    obtain ⟨f, here, value, leading'⟩ := scanBit_issues (w := w) (st := st) (e := e) valid positive inv isBit leading
    exact here.append (ih inv' leading' (by rw [div_two_pow_eq, above, value]))

/-- Up to FINISH, the micro-ops of a run leave the power in the accumulator (R186, R188). -/
theorem powerProgram_issues {d : Nat} (digits : 1 ≤ d) (x : Nat) :
    Issues w ops (buildProgram w ++ resInitPhase ++ (runScan d x w).2) .empty
      (.power w ops (ops .g ^ x % ops .p)) := by
  refine ((buildProgram_issues valid positive).append (resInitPhase_issues positive)).append ?_
  rw [runScan_eq_scanBelow digits]
  refine scanBelow_issues valid positive (initial_windowInv valid) (fun _ => rfl) ?_
  rw [Nat.div_eq_of_lt (lt_two_pow_bitLength x)]
  rfl

/-- FINISH comes after micro-ops that leave the power in the accumulator (R184, R186). -/
theorem issueProgram_issues {d : Nat} (digits : 1 ≤ d) (x : Nat) :
    ∃ l, issueProgram d x w = l ++ [.exch, .relall] ∧ Issues w ops l .empty (.power w ops (ops .g ^ x % ops .p)) :=
  ⟨_, rfl, powerProgram_issues valid positive digits x⟩

end Scan

end Power

/-! ### Engine steps one after the other (R72, R271) -/

section EngineSteps

variable {s t r : State} {P Q : State → Prop} {a b n : Nat}

/-- Every step takes one turn off the interleaving. -/
theorem step_turns (h : step s = .next t) : t.turns = s.turns.tail := by
  rcases step_next h with ⟨_, rfl⟩ | ⟨_, rfl⟩ | ⟨_, rfl⟩ | ⟨i, hrun, ran⟩
  · rfl
  · rfl
  · rfl
  · rcases nextAction_run hrun with host | ⟨uop, _, _⟩
    · obtain ⟨-, -, -, -, -, -, turns⟩ := (exec_host_effect host ran).engine_fields_eq
      exact turns
    · obtain ⟨-, -, -, -, -, -, -, -, -, -, turns⟩ := (exec_uop_effect uop ran).control_fields_eq
      exact turns

theorem reaches_turns (h : reaches n s t) : t.turns = s.turns.drop n := by
  induction n generalizing s with
  | zero => rw [reaches_zero.1 h]; rfl
  | succ n ih =>
    obtain ⟨r, stepped, later⟩ := reaches_succ.1 h
    rw [ih later, step_turns stepped, List.drop_tail]

/-- No reset is to come later in a run without one. -/
theorem noReset_of_reaches (h : reaches n s t) (noReset : Turn.reset ∉ s.turns) : Turn.reset ∉ t.turns := by
  rw [reaches_turns h]
  exact mt List.mem_of_mem_drop noReset

/-- The engine's turns can be counted in two parts: the second part is counted on the interleaving that the first
leaves. -/
theorem stepsFor_add (l : List Turn) (a b : Nat) :
    stepsFor l (a + b) = stepsFor l a + stepsFor (l.drop (stepsFor l a)) b := by
  have alone (n : Nat) : stepsFor [] n = n := by cases n <;> rfl
  induction l generalizing a with
  | nil => simp only [List.drop_nil, alone]
  | cons turn l ih =>
    cases a with
    | zero => rw [Nat.zero_add, stepsFor, List.drop_zero, Nat.zero_add]
    | succ a =>
      rw [Nat.succ_add]
      cases turn with
      | engine => simp only [stepsFor, List.drop_succ_cons, ih a, Nat.add_right_comm]
      | host | reset =>
        simp only [stepsFor, List.drop_succ_cons]
        rw [Nat.add_right_comm a b 1, ih (a + 1), Nat.add_right_comm]

theorem reaches_stepsFor_add (first : reaches (stepsFor s.turns a) s r) (rest : reaches (stepsFor r.turns b) r t) :
    reaches (stepsFor s.turns (a + b)) s t := by
  rw [stepsFor_add, ← reaches_turns first]
  exact reaches_add first rest

/-- A property of busy states that the turns of the host leave. -/
structure Undisturbed (P : State → Prop) : Prop where
  busy : ∀ {s}, P s → s.busy = true
  host : ∀ {s} ie bw rd dr turns, P s → P { s with ie := ie, busyWr := bw, rdata := rd, draws := dr, turns := turns }

/-- One engine step, with the host's turns before it. -/
theorem Undisturbed.reaches_engine_step (undisturbed : Undisturbed P)
    (engine : ∀ {t}, P t → t.enginesTurn → ∃ r, step t = .next r ∧ Q r) (start : P s)
    (noReset : Turn.reset ∉ s.turns) :
    ∃ t, reaches (stepsFor s.turns 1) s t ∧ Q t ∧ Turn.reset ∉ t.turns := by
  obtain ⟨t, reached, -, after⟩ := reaches_engine_steps (P := fun e t => (e = 0 → P t) ∧ (e = 1 → Q t))
    (last := 1) (e := 0)
    (fun before here => undisturbed.busy (here.1 (Nat.lt_one_iff.1 before)))
    (fun ie bw rd dr turns before here =>
      ⟨fun zero => undisturbed.host ie bw rd dr turns (here.1 zero), fun one => absurd one (Nat.ne_of_lt before)⟩)
    (fun before here turn => by
      obtain rfl := Nat.lt_one_iff.1 before
      obtain ⟨r, stepped, after⟩ := engine (here.1 rfl) turn
      exact ⟨r, stepped, step_turns stepped, nofun, fun _ => after⟩)
    (Nat.zero_add 1) ⟨fun _ => start, nofun⟩ noReset
  exact ⟨t, reached, after rfl, noReset_of_reaches reached noReset⟩

end EngineSteps

/-! ### The run that computes the power (R186, R188) -/

section PowerRun

variable {s t r : State} {n k v : Nat} {c : Contents} {i : Instr}

theorem State.AwaitsSelect.undisturbed : Undisturbed (s.AwaitsSelect k) where
  busy waits := by simp [State.busy, waits.atSelect]
  host _ _ _ _ _ waits := { waits with inv := { waits.inv with } }

theorem State.InRun.undisturbed : Undisturbed (s.InRun n k c) where
  busy run := by simp [State.busy, run.position]
  host _ _ _ _ _ run := { run with inv := { run.inv with }, view := { run.view with } }

/-- The engine issues the entry of the program (R120). -/
theorem State.InRun.issues (run : s.InRun n k c t) (turn : t.enginesTurn) (entry : s.program[n]? = some i)
    (uop : i.isUop = true) : Machine.step t = exec i t.takeTurn := by
  have word : t.prog[n]? = some (uopWord i) := by simp [run.program, entry]
  obtain ⟨issued, -⟩ := engineIssuesProgramWord t n _ turn run.position word
  exact issued i (decodeUop_uopWord uop)

theorem State.InRun.nextSeq_eq (run : s.InRun n k c t) :
    t.takeTurn.nextSeq = if n + 1 < s.program.length then .run (n + 1) else .done := by
  simp [State.nextSeq, run.position, run.program]

/-- A micro-op that moves on leaves the run at the next entry, whatever the kernel answered. -/
theorem State.InRun.moved_on (run : s.InRun n k c t) (uop : i.isUop = true) (stepped : Machine.step t = .next r)
    (ran : exec i t.takeTurn = .next r) (position : r.seq = .run (n + 1)) : s.InRun (n + 1) 0 r.contents r := by
  have effect := exec_uop_effect uop ran
  obtain ⟨-, -, -, -, -, -, window, program, -⟩ := effect.control_fields_eq
  obtain ⟨-, capacity, -⟩ := run.inv.params
  refine ⟨stepKeepsInvariant t r run.inv stepped, position, program.trans run.program, rfl,
    window.trans run.view.window, fun a => ?_, rfl⟩
  rw [effect.op_eq a (Nat.le_trans (run.inv.lengths a) capacity), op_takeTurn, run.view.operands]

/-- The run that began in the state `s` is at entry `n`, and its result `v` is in Y_MEM and YLEN (R129). -/
structure State.Stored (s : State) (n v : Nat) (t : State) : Prop where
  run : s.InRun n 0 t.contents t
  result : t.result = v
  ylen : t.ylen.toNat = wordLength v

theorem State.Stored.undisturbed : Undisturbed (s.Stored n v) where
  busy stored := State.InRun.undisturbed.busy stored.run
  host ie bw rd dr turns stored :=
    { stored with run := State.InRun.undisturbed.host ie bw rd dr turns stored.run }

/-- A value below the modulus fits in Y_MEM and its length in YLEN (R9, R31). -/
theorem State.Inv.fits_output (inv : s.Inv) (small : v < s.op .p) :
    v < 2 ^ (32 * s.params.nwords) ∧ wordLength v < 2 ^ 32 := by
  have fits := Nat.lt_trans small (op_lt s .p (inv.lengths .p))
  have bits := bitLength_le fits
  obtain ⟨-, capacity, -⟩ := inv.params
  refine ⟨fits, ?_⟩
  rw [wordLength, ceilDiv]
  omega

theorem result_moveResult (s : State) : s.moveResult.result = s.regValue .res % 2 ^ (32 * s.params.nwords) :=
  value_storeWords ..

/-- The engine's step at EXCH stores the accumulator (R129). -/
theorem State.InRun.step_exch (run : s.InRun n k c t) (turn : t.enginesTurn) (entry : s.program[n]? = some .exch)
    (more : n + 1 < s.program.length) (held : .res ∈ c.held) (value : c.value .res = some v) (small : v < s.op .p) :
    ∃ r, Machine.step t = .next r ∧ s.Stored (n + 1) v r := by
  have ran := exec_exch (run.view.takeTurn.held_iff.2 held) (run.view.takeTurn.readReg_eq.trans value)
  have stepped := (run.issues turn entry rfl).trans ran
  have position : t.takeTurn.nextSeq = .run (n + 1) := run.nextSeq_eq.trans (if_pos more)
  obtain ⟨fits, length⟩ := run.inv.fits_output (v := v) (by rwa [run.view.operands])
  have moved : (t.takeTurn.setLastUop (uopWord .exch)).regValue .res = v := by
    rw [regValue_setLastUop, run.view.takeTurn.regValue_eq value]
  refine ⟨_, stepped, run.moved_on rfl stepped ran position, ?_, ?_⟩
  · show State.result (State.moveResult _) = v
    rw [result_moveResult, moved]
    exact Nat.mod_eq_of_lt fits
  · show (BitVec.ofNat 32 (wordLength _)).toNat = _
    rw [moved]
    exact Nat.mod_eq_of_lt length

theorem exec_relall (s : State) :
    exec .relall s = .next (s.setLastUop (uopWord .relall)).releaseAll.advance :=
  exec_uop_completes rfl rfl rfl

/-- The engine's step at the final RELALL ends the run (R130, R186). -/
theorem State.Stored.step_relall (stored : s.Stored n v t) (turn : t.enginesTurn)
    (entry : s.program[n]? = some .relall) (last : s.program.length = n + 1) :
    ∃ r, step t = .next r ∧ r.seq = .done ∧ r.err = none ∧ r.held = [] ∧ r.result = v ∧
      r.ylen.toNat = wordLength v := by
  have position : t.takeTurn.nextSeq = .done := stored.run.nextSeq_eq.trans (if_neg (by omega))
  have noFailure : t.err = none := by
    simpa [stored.run.position, Seq.failed] using stored.run.inv.errRecorded
  exact ⟨_, (stored.run.issues turn entry rfl).trans (exec_relall _), position, noFailure, rfl, stored.result,
    stored.ylen⟩

theorem State.kernelOk.mono {m : Nat} (ok : s.kernelOk n) (fewer : m ≤ n) : s.kernelOk m := by
  unfold State.kernelOk at ok ⊢
  rw [← Nat.min_eq_left fewer, ← List.take_take, ok, List.take_replicate]

/-- Settles O57: the program up to FINISH leaves the power in the accumulator, EXCH stores it, and RELALL ends the
run. -/
theorem runComputesPower : Obligations.RunComputesPower := by
  intro s start positive ok
  obtain ⟨-, -, digits, -⟩ := start.inv.params
  obtain ⟨l, program, issues⟩ := issueProgram_issues (ops := s.op) (windowSize_valid _) positive digits (s.op .x)
  change s.program = _ at program
  have length : s.program.length = l.length + 2 := by simp [program]
  have small := Nat.mod_lt (s.op .g ^ s.op .x) (Nat.pos_of_ne_zero positive)
  obtain ⟨t, reached, run⟩ :=
    start.reaches_inRun ⟨_, program.symm⟩ (by omega) (ok.mono (by omega)) issues
  obtain ⟨u, exchanged, stored, noReset⟩ := State.InRun.undisturbed.reaches_engine_step
    (fun run turn => run.step_exch turn (by simp [program]) (by omega) (Contents.mem_power (.inr rfl))
      (Contents.power_res ..) small) run (noReset_of_reaches reached start.noReset)
  obtain ⟨r, released, ⟨done, err, held, result, ylen⟩, -⟩ := State.Stored.undisturbed.reaches_engine_step
    (fun stored turn => stored.step_relall turn (by simp [program]) length) stored noReset
  have steps : 1 + s.program.length = 1 + l.length + 1 + 1 := by omega
  refine ⟨r, ?_, done, err, held, result, ylen⟩
  rw [steps]
  exact reaches_stepsFor_add (reaches_stepsFor_add reached exchanged) released

end PowerRun

/-! ### A run ends, whatever the kernel answers (R190) -/

section RunEnds

variable {s t : State} {w d : Nat} {ops : Operand → Nat} {c c' : Contents} {i : Instr} {l l' : List Instr}

/-- The micro-ops of a list meet no fault one after the other, from the contents `c` on: each fails, but not the last of
them, or moves on. -/
def Safe (w : Nat) (ops : Operand → Nat) : List Instr → Contents → Prop
  | [], _ => True
  | i :: l, c => i.isUop = true ∧ ∀ s : State, s.Shows w ops c →
      ∃ t, exec i s = .next t ∧ ((t.seq = .cleanup ∧ l ≠ []) ∨ (t.seq = s.nextSeq ∧ Safe w ops l t.contents))

/-- A micro-op that is not answered `ok` fails, unless it never asks the kernel (R222). -/
theorem UopEffect.failed_or_infallible (effect : UopEffect i s t) (notOk : s.kernelAnswer ≠ .ok) :
    t.seq = .cleanup ∨ i = .set1 ∨ i = .exch ∨ i = .relall := by
  have fails := kernelFailure_isSome (i := i) notOk
  cases effect with
  | zeroModulus | failed => exact .inl (enterFailure_seq ..)
  | acquired _ _ _ ok | wrote _ _ _ _ _ ok => simp [ok] at fails
  | set1 which => exact .inr (.inl which)
  | exch which => exact .inr (.inr (.inl which))
  | relall which => exact .inr (.inr (.inr which))

/-- What a micro-op that never fails does is the same whatever answers are to come (R222). -/
theorem uopBody_kernel (infallible : i = .set1 ∨ i = .exch ∨ i = .relall) (s : State) (answers : List KAnswer) :
    uopBody i { s with kernel := answers } = { uopBody i s with kernel := answers } := by
  rcases infallible with rfl | rfl | rfl <;> rfl

/-- Where a micro-op succeeds if the kernel answers `ok`, it fails or succeeds whatever the kernel answers. -/
theorem Succeeds.fails_or_succeeds (succeeds : Succeeds w ops i c c') (view : s.Shows w ops c) :
    ∃ t, exec i s = .next t ∧ (t.seq = .cleanup ∨ (t.seq = s.nextSeq ∧ t.contents = c')) := by
  obtain ⟨uop, completes⟩ := succeeds
  by_cases ok : s.kernelAnswer = .ok
  · obtain ⟨t, ran, after⟩ := completes s view ok
    exact ⟨t, ran, .inr after⟩
  · obtain ⟨t, granted, position, contents⟩ := completes { s with kernel := [.ok] } { view with } rfl
    obtain ⟨admitted, met, rfl⟩ := exec_uop_next uop granted
    have ran := exec_uop_completes uop (s := s) admitted met
    refine ⟨_, ran, ((exec_uop_effect uop ran).failed_or_infallible ok).imp_right fun infallible => ?_⟩
    have same : uopBody i (State.setLastUop { s with kernel := [.ok] } (uopWord i)) = _ :=
      uopBody_kernel infallible (s.setLastUop (uopWord i)) [.ok]
    rw [same] at position contents
    exact ⟨position, contents⟩

/-- Micro-ops that succeed where the kernel answers `ok` meet no fault whatever it answers. -/
theorem Issues.safe (issues : Issues w ops l c c') (rest : Safe w ops l' c') (more : l' ≠ []) :
    Safe w ops (l ++ l') c := by
  induction l generalizing c with
  | nil =>
    cases issues
    exact rest
  | cons i l ih =>
    obtain ⟨d, succeeds, later⟩ := issues
    refine ⟨succeeds.1, fun s view => ?_⟩
    obtain ⟨t, ran, outcome⟩ := succeeds.fails_or_succeeds view
    refine ⟨t, ran, outcome.imp (fun failed => ⟨failed, by simp [more]⟩) ?_⟩
    rintro ⟨position, rfl⟩
    exact ⟨position, ih later⟩

/-- EXCH and RELALL never fail (R222). -/
theorem finishPhase_safe (v : Nat) : Safe w ops finishPhase (.power w ops v) := by
  refine ⟨rfl, fun s view => ⟨_, exec_exch (view.held_iff.2 (Contents.mem_power (.inr rfl)))
    (view.readReg_eq.trans (Contents.power_res w ops v)), .inr ⟨rfl, ?_⟩⟩⟩
  exact ⟨rfl, fun t _ => ⟨_, exec_relall t, .inr ⟨rfl, trivial⟩⟩⟩

/-- With a zero modulus SETUP fails (R224). -/
theorem setup_safe (zero : ops .p = 0) (held : .ctx ∈ c.held) (more : l ≠ []) : Safe w ops (.setup :: l) c := by
  refine ⟨rfl, fun s view => ?_⟩
  have met : preconditionFault s .setup = none :=
    preconditionFault_eq_none nofun (by simp [named, view.held_iff.2 held]) nofun nofun
  refine ⟨_, exec_uop_completes rfl rfl met, .inl ⟨?_, more⟩⟩
  have modulus : (s.setLastUop (uopWord .setup)).op .p = 0 := by rw [op_setLastUop, view.operands, zero]
  rw [uopBody, unlessZeroModulus, if_pos modulus, enterFailure_seq]

/-- The micro-ops of a run meet no fault (R190). -/
theorem issueProgram_safe (valid : validWindow w = true) (digits : 1 ≤ d) (x : Nat) :
    Safe w ops (issueProgram d x w) .empty := by
  by_cases zero : ops .p = 0
  · have free : Reg.ctx ∉ slotsBelow (2 ^ w) := by simp [slotsBelow]
    have acquires : Issues w ops (allocPhase w ++ [.acqCtx]) .empty ((Contents.slots (2 ^ w)).acquire .ctx) :=
      (allocPhase_issues valid).append ⟨_, Succeeds.acquire ⟨rfl, rfl⟩ rfl free, rfl⟩
    have program : issueProgram d x w = (allocPhase w ++ [.acqCtx]) ++
        .setup :: ([.mod] ++ midPhase w ++ upperPhase w ++ resInitPhase ++ (runScan d x w).2 ++ finishPhase) := by
      simp [issueProgram, buildProgram, setupPhase]
    rw [program]
    exact acquires.safe (setup_safe zero (by simp [Contents.acquire]) (by simp [finishPhase])) nofun
  · exact (powerProgram_issues valid zero digits x).safe (finishPhase_safe _) nofun

/-- The program from its first entry on. -/
theorem issueProgram_cons_safe (valid : validWindow w = true) (digits : 1 ≤ d) (x : Nat) :
    ∃ i l, issueProgram d x w = i :: l ∧ Safe w ops (i :: l) .empty := by
  obtain ⟨i, l, program⟩ : ∃ i l, issueProgram d x w = i :: l :=
    List.exists_cons_of_ne_nil (by simp [issueProgram, finishPhase])
  exact ⟨i, l, program, program ▸ issueProgram_safe valid digits x⟩

/-- The Cleanup step ends the run (R227). -/
theorem step_cleanup (turn : s.enginesTurn) (cleanup : s.seq = .cleanup) : ∃ t, step s = .next t ∧ t.seq = .error := by
  have word : decodeUop s.nextWord = .ok .relall := by simp [State.nextWord, cleanup]
  have action := (nextAction_engine turn).trans (engineAction_of_ok (by rw [cleanup]; rfl) word)
  refine ⟨_, (step_run action).trans (exec_relall _), ?_⟩
  show s.nextSeq = .error
  rw [State.nextSeq, cleanup]

theorem cleanup_undisturbed : Undisturbed (fun t => t.seq = .cleanup) where
  busy cleanup := by simp [State.busy, cleanup]
  host _ _ _ _ _ cleanup := cleanup

/-- The engine's step in a run whose micro-ops meet no fault. -/
theorem State.InRun.step_safe {done : List Instr} (run : s.InRun done.length 0 c t) (turn : t.enginesTurn)
    (program : s.program = done ++ i :: l) (safe : Safe (windowSize (bitLength (s.op .x))) s.op (i :: l) c) :
    ∃ r, Machine.step t = .next r ∧ ((r.seq = .cleanup ∧ l ≠ []) ∨ r.seq = .done ∨
      (l ≠ [] ∧ s.InRun (done.length + 1) 0 r.contents r ∧
        Safe (windowSize (bitLength (s.op .x))) s.op l r.contents)) := by
  obtain ⟨uop, outcomes⟩ := safe
  obtain ⟨r, ran, outcome⟩ := outcomes t.takeTurn run.view.takeTurn
  have stepped := (run.issues turn (by simp [program]) uop).trans ran
  refine ⟨r, stepped, outcome.imp_right fun ⟨position, later⟩ => ?_⟩
  rw [run.nextSeq_eq] at position
  cases l with
  | nil => exact .inl (position.trans (if_neg (by simp [program])))
  | cons j l =>
    have next := position.trans (if_pos (by simp [program]))
    exact .inr ⟨nofun, run.moved_on uop stepped ran next, later⟩

/-- From an entry on, a run whose micro-ops meet no fault ends within as many engine steps as there are entries: a
failure before the last of them leaves one for the cleanup. -/
theorem State.InRun.ends {done : List Instr} (run : s.InRun done.length 0 c t)
    (program : s.program = done ++ i :: l) (safe : Safe (windowSize (bitLength (s.op .x))) s.op (i :: l) c)
    (noReset : Turn.reset ∉ t.turns) :
    ∃ e r, e ≤ l.length + 1 ∧ reaches (stepsFor t.turns e) t r ∧ (r.seq = .done ∨ r.seq = .error) := by
  induction l generalizing t c i done with
  | nil =>
    obtain ⟨r, reached, ⟨-, more⟩ | finished | ⟨more, -⟩, -⟩ :=
      State.InRun.undisturbed.reaches_engine_step (fun run turn => run.step_safe turn program safe) run noReset
    · exact absurd rfl more
    · exact ⟨1, r, Nat.le_refl 1, reached, .inl finished⟩
    · exact absurd rfl more
  | cons j l ih =>
    obtain ⟨r, reached, ⟨failed, -⟩ | finished | ⟨-, run', safe'⟩, noReset'⟩ :=
      State.InRun.undisturbed.reaches_engine_step (fun run turn => run.step_safe turn program safe) run noReset
    · obtain ⟨u, cleaned, error, -⟩ :=
        cleanup_undisturbed.reaches_engine_step (fun here turn => step_cleanup turn here) failed noReset'
      exact ⟨1 + 1, u, by simp, reaches_stepsFor_add reached cleaned, .inr error⟩
    · exact ⟨1, r, by simp, reached, .inl finished⟩
    · obtain ⟨e, u, few, later, ended⟩ :=
        ih (done := done ++ [i]) (by simpa using run') (by simp [program]) safe' noReset'
      exact ⟨1 + e, u, by rw [List.length_cons]; omega, reaches_stepsFor_add reached later, ended⟩

/-- Settles O55: the Select step enters a run whose micro-ops meet no fault. -/
theorem runEndsWithoutFault : Obligations.RunEndsWithoutFault := by
  intro s start
  obtain ⟨-, -, digits, -⟩ := start.inv.params
  obtain ⟨i, l, program, safe⟩ := issueProgram_cons_safe (ops := s.op) (windowSize_valid _) digits (s.op .x)
  change s.program = _ at program
  have waits : s.AwaitsSelect 0 s := ⟨start.inv, start.atSelect, rfl, fun _ => rfl, rfl⟩
  obtain ⟨t, selected, run, noReset⟩ := State.AwaitsSelect.undisturbed.reaches_engine_step
    (fun waits turn => (waits.step turn).imp fun _ ⟨stepped, _, run⟩ => ⟨stepped, run⟩) waits start.noReset
  obtain ⟨e, r, few, later, ended⟩ := run.ends (done := []) program safe noReset
  exact ⟨1 + e, r, by rw [program, List.length_cons]; omega, reaches_stepsFor_add selected later, ended⟩

end RunEnds

end Sys2Proof.Machine

/-! ## The classical Barrett reduction (44_barrett_reduce_pipe.md) -/

namespace Sys2Proof.Machine

section Barrett

variable {d m x y A B r : Nat}

/-- The digits in use before the top one do not have all bits of the value (R175). -/
theorem mul_pred_usedDigits_lt (digits : 1 ≤ d) (positive : 1 ≤ usedDigits d x) :
    d * (usedDigits d x - 1) < bitLength x := by
  have rounded : d * usedDigits d x ≤ bitLength x + (d - 1) := Nat.mul_div_le _ _
  have top : d ≤ d * usedDigits d x := Nat.le_mul_of_pos_right d positive
  rw [Nat.mul_sub_one]
  omega

/-- The modulus has `n + 1` digits with `b^n <= m < b^(n+1)`, as `k` of R201 asks. -/
theorem modulusDigits_spec (digits : 1 ≤ d) (positive : 1 ≤ m) :
    ∃ n, modulusDigits d m = n + 1 ∧ (2 ^ d) ^ n ≤ m ∧ m < (2 ^ d) ^ (n + 1) := by
  have below : m < (2 ^ d) ^ usedDigits d m := by
    rw [← pow_mul]
    exact (lt_two_pow_bitLength m).trans_le (Nat.pow_le_pow_right (by decide) (bitLength_le_usedDigits digits m))
  have used : 1 ≤ usedDigits d m := by
    by_contra unused
    rw [Nat.lt_one_iff.1 (Nat.lt_of_not_le unused), pow_zero] at below
    omega
  refine ⟨usedDigits d m - 1, (Nat.sub_add_cancel used).symm, ?_, by rwa [Nat.sub_add_cancel used]⟩
  rw [← pow_mul]
  by_contra small
  exact absurd (mul_pred_usedDigits_lt digits used) (bitLength_le (Nat.lt_of_not_le small)).not_gt

/-- What the estimate `q` of the quotient leaves of `x`, scaled by `A * B`, in the remainders of the three divisions: of
`A * B` by the modulus, of `x` by `A`, and of the product by `B` (R201, R209). -/
theorem barrett_remainder_eq {mu t u s q v : Nat} (divN : m * mu + t = A * B) (divX : A * u + s = x)
    (divQ : B * q + v = u * mu) : A * B * x = A * B * (q * m) + (x * t + m * mu * s + m * A * v) := by
  calc A * B * x = m * mu * (A * u + s) + x * t := by rw [← divN, divX]; ring
    _ = m * A * (u * mu) + m * mu * s + x * t := by ring
    _ = m * A * (B * q + v) + m * mu * s + x * t := by rw [divQ]
    _ = A * B * (q * m) + (x * t + m * mu * s + m * A * v) := by ring

/-- The estimate `q3` of the quotient leaves less than `3 * m`, with `A = b^(k-1)` and `B = b^(k+1)`: each of the three
remainders is worth at most one modulus, and the first of them less (R209). -/
theorem barrett_quotient_bounds (positive : 1 ≤ m) (low : A ≤ m) (high : x < A * B) :
    x / A * (A * B / m) / B * m ≤ x ∧ x < x / A * (A * B / m) / B * m + 3 * m := by
  have product : 0 < A * B := Nat.zero_lt_of_lt high
  have divN := Nat.div_add_mod (A * B) m
  have left := barrett_remainder_eq divN (Nat.div_add_mod x A) (Nat.div_add_mod (x / A * (A * B / m)) B)
  have remX : x % A ≤ m := (Nat.mod_lt x (Nat.pos_of_mul_pos_right product)).le.trans low
  have remQ := (Nat.mod_lt (x / A * (A * B / m)) (Nat.pos_of_mul_pos_left product)).le
  have fromN : x * (A * B % m) < A * B * m := Nat.mul_lt_mul'' high (Nat.mod_lt (A * B) positive)
  have fromX : m * (A * B / m) * (x % A) ≤ A * B * m := Nat.mul_le_mul (Nat.mul_div_le (A * B) m) remX
  have fromQ : m * A * (x / A * (A * B / m) % B) ≤ A * B * m := by
    calc m * A * (x / A * (A * B / m) % B) ≤ m * A * B := Nat.mul_le_mul_left _ remQ
      _ = A * B * m := by ring
  constructor
  · exact Nat.le_of_mul_le_mul_left (by omega) product
  · refine Nat.lt_of_mul_lt_mul_left (a := A * B) ?_
    rw [Nat.mul_add, Nat.mul_left_comm _ 3]
    omega

/-- The difference of two values is that of their remainders, with one wrap, when it is below `B` (R209). -/
theorem wrapped_sub_mod (low : y ≤ x) (near : x - y < B) :
    (if x % B < y % B then x % B + B - y % B else x % B - y % B) = x - y := by
  obtain ⟨r, rfl⟩ := Nat.exists_eq_add_of_le low
  rw [Nat.add_sub_cancel_left] at near ⊢
  have rem := Nat.mod_lt y (Nat.zero_lt_of_lt near)
  rw [Nat.add_mod_eq_ite, Nat.mod_eq_of_lt near]
  split_ifs <;> omega

/-- A pass of the correction loop keeps the remainder (R209). -/
@[simp] theorem correctOnce_mod (m r : Nat) : correctOnce m r % m = r % m := by
  unfold correctOnce
  split
  next more => exact (Nat.mod_eq_sub_mod more).symm
  next => rfl

/-- A pass of the correction loop takes one modulus off what is not yet reduced (R209). -/
theorem correctOnce_lt (n : Nat) (below : r < (n + 2) * m) : correctOnce m r < (n + 1) * m := by
  rw [Nat.add_mul] at below ⊢
  unfold correctOnce
  split
  next => omega
  next => omega

/-- Two passes of the correction loop reduce a value below `3 * m` (R209). -/
theorem correctOnce_correctOnce (below : r < 3 * m) : correctOnce m (correctOnce m r) = r % m := by
  have reduced := correctOnce_lt 0 (correctOnce_lt 1 below)
  rw [Nat.zero_add, Nat.one_mul] at reduced
  rw [← Nat.mod_eq_of_lt reduced, correctOnce_mod, correctOnce_mod]

/-- Settles O60: the estimate of the quotient leaves less than `3 * m`, which digits of two bits or more hold below
`b^(k+1)`, so the wrapped difference is exact and two passes reduce it. -/
theorem classicalBarrettAgrees : Obligations.ClassicalBarrettAgrees := by
  intro d x m digits positive domain
  obtain ⟨n, count, low, high⟩ := modulusDigits_spec (d := d) (by omega) positive
  have wide : 4 ≤ 2 ^ d := Nat.pow_le_pow_right (n := 2) (by decide) digits
  have mu : classicalMu d m = (2 ^ d) ^ n * (2 ^ d) ^ (n + 1 + 1) / m := by
    rw [classicalMu, count, ← pow_mul, ← pow_mul, ← pow_add]
    ring_nf
  simp only [classicalReduce, mu, count, Nat.add_sub_cancel]
  generalize 2 ^ d = b at *
  have product : x < b ^ n * b ^ (n + 1 + 1) := by
    calc x < m * m := domain
      _ ≤ b ^ (n + 1) * b ^ (n + 1) := Nat.mul_le_mul high.le high.le
      _ = b ^ n * b ^ (n + 1 + 1) := by ring
  have room : 3 * m < b ^ (n + 1 + 1) := by
    have := Nat.mul_le_mul_right (b ^ (n + 1)) wide
    rw [pow_succ']
    omega
  obtain ⟨below, near⟩ := barrett_quotient_bounds positive low product
  rw [wrapped_sub_mod below (by omega), correctOnce_correctOnce (by omega)]
  rw [Nat.mul_comm _ m] at below ⊢
  exact Nat.sub_mul_mod below

end Barrett

end Sys2Proof.Machine

/-! ## Failures, cleanup and the interrupt (60_exceptions.md) -/

namespace Sys2Proof.Machine

section Exceptions

variable {s t : State} {i : Instr}

/-! ### The interrupt output (R233) -/

/-- A busy block has finished nothing (R36). -/
theorem irq_eq_false_of_busy (busy : s.busy = true) : s.irq = false := by
  refine irq_eq_false_of_not_finished ?_
  cases hs : s.seq with
  | select | run | cleanup => simp [State.finished, hs]
  | idle | done | error => simp [State.busy, hs] at busy

/-- An accepted CLEAR leaves the block in Idle, and a dropped one busy (R104). -/
theorem clear_irq (s : State) : s.clear.irq = false := by
  rcases clear_cases s with ⟨busy, dropped⟩ | ⟨_, cleared⟩
  · rw [dropped]
    exact irq_eq_false_of_busy (s := s.dropWrite) busy
  · rw [cleared]
    exact irq_eq_false_of_not_finished rfl

/-- After a START that is no model fault the block is busy (R103). -/
theorem start_irq (h : s.start = .next t) : t.irq = false := by
  rcases start_next h with ⟨busy, rfl⟩ | ⟨_, _, rfl⟩
  · exact irq_eq_false_of_busy (s := s.dropWrite) busy
  · exact irq_eq_false_of_busy rfl

/-- Settles O37: no command of the three leaves IE set in Done or Error. -/
theorem interruptLevel : Obligations.InterruptLevel := by
  refine fun s => ⟨irq_eq_true_iff, fun t disabled => ?_, fun b t cleared => ?_, fun b t started => start_irq started⟩
  · cases disabled
    rfl
  · cases cleared
    exact clear_irq _

/-! ### Entering a failure (R222 to R226) -/

/-- The micro-ops that ask for the modulus fail where it is 0, and the kernel is not asked (R224, R225). -/
theorem exec_zeroModulus (who : i = .setup ∨ i = .mod) (zero : s.op .p = 0) (held : ∀ r ∈ named i, r ∈ s.held) :
    exec i s = .next ((s.setLastUop (uopWord i)).enterFailure .invalidModulus (uopWord i) (destination i)) := by
  have modulus : (s.setLastUop (uopWord i)).op .p = 0 := by rw [op_setLastUop, zero]
  have met : preconditionFault s i = none := by
    rcases who with rfl | rfl <;> exact preconditionFault_eq_none nofun held nofun nofun
  rcases who with rfl | rfl <;>
    rw [exec_uop_completes rfl rfl met, uopBody, unlessZeroModulus, if_pos modulus]

/-- Settles O17: SETUP names CTX and MOD names `M[1]`, their destinations. -/
theorem zeroModulusFails : Obligations.ZeroModulusFails := by
  refine fun s zero => ⟨fun held => ?_, fun held => ?_⟩
  · rw [exec_zeroModulus (.inl rfl) zero (by simpa [named] using held)]
    rfl
  · rw [exec_zeroModulus (.inr rfl) zero (by simpa [named] using held)]
    rfl

/-- A fallible micro-op that the kernel fails enters the failure, where a modulus it asks for is not 0 (R225, R226). -/
theorem UopEffect.eq_enterFailure (effect : UopEffect i s t) {k : FailKind}
    (why : kernelFailure i s.kernelAnswer = some k) (notSet1 : i ≠ .set1) (notExch : i ≠ .exch)
    (notRelall : i ≠ .relall) (modulus : i = .setup ∨ i = .mod → s.op .p ≠ 0) :
    t = (s.takeAnswer.setLastUop (uopWord i)).enterFailure k (uopWord i) (destination i) := by
  cases effect with
  | failed k' why' => cases why.symm.trans why'; rfl
  | zeroModulus op0 who => exact absurd op0 (modulus who)
  | acquired _ _ _ ok | wrote _ _ _ _ _ ok => cases why.symm.trans ok
  | set1 which => exact absurd which notSet1
  | exch which => exact absurd which notExch
  | relall which => exact absurd which notRelall

/-- Settles O26: the step is the entry of the failure, on the state whose answer is taken. -/
theorem kernelFailureEntersCleanup : Obligations.KernelFailureEntersCleanup := by
  intro i s kind uop notSet1 notExch notRelall admitted met modulus why
  obtain ⟨t, run⟩ : ∃ t, exec i s = .next t := ⟨_, exec_uop_completes uop admitted met⟩
  obtain rfl := (exec_uop_effect uop run).eq_enterFailure why notSet1 notExch notRelall modulus
  have values : ∀ r, ((s.takeAnswer.setLastUop (uopWord i)).enterFailure kind (uopWord i) (destination i)).readReg r =
      if some r = destination i then none else s.readReg r := fun r => by simp [readReg_enterFailure]
  refine ⟨_, run, enterFailure_err .., enterFailure_errUop .., ?_, enterFailure_seq .., fun d which => ?_,
    fun r other => ?_, ?_⟩
  · simp
  · rw [values, which, if_pos rfl]
  · rw [values, if_neg (Ne.symm other)]
  · simp

/-- The kernel's answers mean AllocationFailure or ArithmeticFailure, and the latter not for ACQ and COPY (R222). -/
theorem kernelFailure_kind {a : KAnswer} {k : FailKind} (why : kernelFailure i a = some k) :
    k = .allocation ∨ (k = .arithmetic ∧ acquired i = none ∧ ∀ mid, i ≠ .copy mid) := by
  cases a with
  | ok => simp at why
  | failAllocation => cases why; exact .inl rfl
  | failArithmetic =>
    cases i with
    | acqM | acqCtx | acqRes | copy => cases why; exact .inl rfl
    | _ => cases why; exact .inr ⟨rfl, rfl, nofun⟩

/-- The micro-ops that compute with the kernel, which alone can fail with ArithmeticFailure (R222). -/
theorem uop_computes (uop : i.isUop = true) (notAcq : acquired i = none) (notCopy : ∀ mid, i ≠ .copy mid)
    (notSet1 : i ≠ .set1) (notExch : i ≠ .exch) (notRelall : i ≠ .relall) :
    i = .setup ∨ i = .mod ∨ i = .sqrRes ∨ i = .redRes ∨ (∃ k, i = .sqrM k) ∨ (∃ k b, i = .mulM k b) ∨
      (∃ j, i = .mulRes j) ∨ ∃ j, i = .redM j := by
  cases i with
  | setup | mod | sqrRes | redRes | sqrM | mulM | mulRes | redM => simp
  | acqM | acqCtx | acqRes => cases notAcq
  | copy mid => exact absurd rfl (notCopy mid)
  | set1 => exact absurd rfl notSet1
  | exch => exact absurd rfl notExch
  | relall => exact absurd rfl notRelall
  | _ => cases uop

/-- Settles O27: ERR is written where a failure is entered, with the kernel's kind or for a zero modulus. -/
theorem failureKindsOfEachUop : Obligations.FailureKindsOfEachUop := by
  intro i s t uop run
  cases exec_uop_effect uop run with
  | zeroModulus op0 who => exact .inr (.inr (.inr ⟨enterFailure_err .., op0, who⟩))
  | failed k why notSet1 notExch notRelall =>
    rcases kernelFailure_kind why with rfl | ⟨rfl, notAcq, notCopy⟩
    · exact .inr (.inl ⟨enterFailure_err .., notSet1, notExch, notRelall⟩)
    · exact .inr (.inr (.inl ⟨enterFailure_err .., uop_computes uop notAcq notCopy notSet1 notExch notRelall⟩))
  | acquired | wrote | set1 | exch | relall => exact .inl (by simp)

/-! ### The Cleanup step (R227) -/

/-- Settles O7: the word of the Cleanup step is RELALL's, and RELALL there goes to Error. -/
theorem cleanupStepReleasesAll : Obligations.CleanupStepReleasesAll := by
  intro s turn cleanup
  have word : decodeUop s.nextWord = .ok .relall := by simp [State.nextWord, cleanup]
  have action := (nextAction_engine turn).trans (engineAction_of_ok (by rw [cleanup]; rfl) word)
  have position : s.takeTurn.nextSeq = .error := by simp [State.nextSeq, cleanup]
  rw [step_run action, relallCompletes, position]
  rfl

end Exceptions

section FailedRun

variable {s t r : State} {i : Instr} {n : Nat} {c : Contents}

/-! ### Where a program issues EXCH and RELALL (R184, R186) -/

theorem exch_not_mem_buildProgram (w : Nat) : Instr.exch ∉ buildProgram w := by
  have none : (buildProgram w).countP (· == .exch) = 0 :=
    countP_buildProgram (m := 0) (n := 0) (fun _ => rfl) rfl rfl fun _ => rfl
  exact fun mem => List.countP_eq_zero.1 none _ mem rfl

theorem exch_not_mem_flushOps (st : ScanState) : Instr.exch ∉ flushOps st := by
  have step (a c k : Nat) : Instr.exch ∉ flushStep a c k := by
    unfold flushStep
    split <;> simp [squareReduceRes, multiplyReduceRes]
  cases mode : st.mode with
  | accumulating => simp [flushOps, mode, step]
  | skipLeadingZeros | squaring => simp [flushOps, mode]

theorem exch_not_mem_scanBit (w y : Nat) (st : ScanState) : Instr.exch ∉ (scanBit w y st).2 := by
  rcases scanBit_cases st y with ⟨mode, rfl⟩ | ⟨mode, rfl⟩ | appends
  · simp [scanBit_skips mode]
  · simp [scanBit_squares mode, squareReduceRes]
  · rw [scanBit_appends appends]
    by_cases full : st.windowBitCount + 1 = w
    · simp [appendBit_full full, fullWindow, squareReduceRes, multiplyReduceRes]
    · simp [appendBit_open full]

theorem exch_not_mem_scanBelow (w x n : Nat) (st : ScanState) : Instr.exch ∉ scanBelow w x n st := by
  induction n generalizing st with
  | zero => exact exch_not_mem_flushOps st
  | succ n ih => simp [scanBelow, exch_not_mem_scanBit, ih]

/-- EXCH is the last micro-op but one of a program, and stands nowhere else (R184, R186). -/
theorem exch_position {d x w : Nat} (digits : 1 ≤ d) (entry : (issueProgram d x w)[n]? = some .exch) :
    n + 2 = (issueProgram d x w).length := by
  have front : Instr.exch ∉ buildProgram w ++ resInitPhase ++ (runScan d x w).2 := by
    simp [runScan_eq_scanBelow digits, exch_not_mem_buildProgram, exch_not_mem_scanBelow, resInitPhase]
  unfold issueProgram at entry ⊢
  generalize buildProgram w ++ resInitPhase ++ (runScan d x w).2 = l at front entry ⊢
  rw [List.length_append]
  rcases Nat.lt_trichotomy n l.length with before | rfl | after
  · rw [List.getElem?_append_left before] at entry
    exact absurd (List.mem_of_getElem? entry) front
  · rfl
  · rw [List.getElem?_append_right (Nat.le_of_lt after)] at entry
    obtain ⟨k, later⟩ : ∃ k, n - l.length = k + 1 := ⟨n - l.length - 1, by omega⟩
    rw [later] at entry
    cases k <;> cases entry

/-- RELALL is the last micro-op of a program (R184, R186). -/
theorem relall_of_last {d x w : Nat} (last : n + 1 = (issueProgram d x w).length)
    (entry : (issueProgram d x w)[n]? = some i) : i = .relall := by
  have ends := issueProgram_getLast? d x w
  rw [List.getLast?_eq_getElem?, ← last, Nat.add_sub_cancel, entry] at ends
  exact Option.some.inj ends

/-! ### The failed run (R226 to R230) -/

/-- Word 0 is no micro-op (R89). -/
theorem uopWord_ne_zero (uop : i.isUop = true) : uopWord i ≠ 0#32 := by
  intro zero
  have word := decodeUop_uopWord uop
  rw [zero] at word
  cases word

/-- A micro-op moves on, or it enters a failure of its own; EXCH and RELALL never do (R222, R226). -/
theorem UopEffect.fails_or_moves_on (effect : UopEffect i s t) :
    (t.seq = .cleanup ∧ t.errUop = uopWord i ∧ i ≠ .exch ∧ i ≠ .relall) ∨ t.seq = s.nextSeq := by
  cases effect with
  | zeroModulus _ who =>
    exact .inl ⟨enterFailure_seq .., enterFailure_errUop .., by rcases who with rfl | rfl <;> simp⟩
  | failed _ _ _ notExch notRelall => exact .inl ⟨enterFailure_seq .., enterFailure_errUop .., notExch, notRelall⟩
  | acquired | wrote | set1 | exch | relall => exact .inr (by simp)

/-- Memory and YLEN are as they are in the state `s` (R70). -/
structure State.SameOutput (s t : State) : Prop where
  mem : t.mem = s.mem
  ylen : t.ylen = s.ylen

theorem State.SameOutput.uop (same : s.SameOutput t) (effect : UopEffect i t.takeTurn r) (other : i ≠ .exch) :
    s.SameOutput r := by
  obtain ⟨mem, ylen⟩ := effect.output_eq other
  exact ⟨mem.trans same.mem, ylen.trans same.ylen⟩

/-- The run that began in the state `s` has failed: it is in Cleanup or Error with its failure recorded, and left the
output as it was (R226 to R230). -/
structure State.Failed (s t : State) : Prop where
  inv : t.Inv
  failed : t.seq.failed = true
  released : t.seq = .error → t.lastUop = 0x50000000#32
  errUop : t.errUop ≠ 0#32
  window : t.w = windowSize (bitLength (s.op .x))
  output : s.SameOutput t

/-- How far the run that began in the state `s` has come. The output is as it was until EXCH, which only RELALL
follows. -/
inductive State.RunPhase (s t : State) : Prop where
  | waits (waits : s.AwaitsSelect 0 t) (output : s.SameOutput t)
  | issues (n : Nat) (c : Contents) (run : s.InRun n 0 c t) (output : n + 1 < s.program.length → s.SameOutput t)
  | failed (failed : s.Failed t)
  | done (done : t.seq = .done)

theorem State.RunPhase.host (phase : s.RunPhase t) (ie bw : Bool) (rd : Word) (dr : Nat) (turns : List Turn) :
    s.RunPhase { t with ie := ie, busyWr := bw, rdata := rd, draws := dr, turns := turns } := by
  cases phase with
  | waits waits output =>
    exact .waits (State.AwaitsSelect.undisturbed.host ie bw rd dr turns waits) { output with }
  | issues n c run output =>
    exact .issues n c (State.InRun.undisturbed.host ie bw rd dr turns run) fun more => { output more with }
  | failed failed => exact .failed { failed with inv := { failed.inv with }, output := { failed.output with } }
  | done done => exact .done done

/-- A micro-op that the engine issues enters a failure with the output as it was, or moves on to the next entry or to
Done. -/
theorem State.InRun.next_phase (digits : 1 ≤ s.params.digitBit) (run : s.InRun n 0 c t)
    (output : n + 1 < s.program.length → s.SameOutput t) (turn : t.enginesTurn) (stepped : Machine.step t = .next r) :
    s.RunPhase r := by
  have inside : n < s.program.length := by simpa [run.program] using (run.inv.position n run.position).1
  obtain ⟨i, entry⟩ : ∃ i, s.program[n]? = some i := ⟨_, List.getElem?_eq_getElem inside⟩
  obtain ⟨uop, -⟩ := programFormsAdmitted _ _ _ digits rfl i (List.mem_of_getElem? entry)
  have ran : exec i t.takeTurn = .next r := (run.issues turn entry uop).symm.trans stepped
  have effect := exec_uop_effect uop ran
  rcases effect.fails_or_moves_on with ⟨cleanup, errUop, notExch, notRelall⟩ | position
  · have more : n + 1 < s.program.length := by
      by_contra atEnd
      exact notRelall (relall_of_last (Nat.le_antisymm inside (Nat.le_of_not_lt atEnd)) entry)
    obtain ⟨-, -, -, -, -, -, window, -⟩ := effect.control_fields_eq
    exact .failed
      { inv := stepKeepsInvariant t r run.inv stepped
        failed := by rw [cleanup]; rfl
        released := fun error => nomatch cleanup.symm.trans error
        errUop := errUop ▸ uopWord_ne_zero uop
        window := window.trans run.view.window
        output := (output more).uop effect notExch }
  · rw [run.nextSeq_eq] at position
    split at position
    next more =>
      refine .issues (n + 1) _ (run.moved_on uop stepped ran position) fun twoMore => (output more).uop effect ?_
      rintro rfl
      have last : n + 2 = s.program.length := exch_position digits entry
      omega
    next => exact .done position

/-- In Done and Error the engine has no step of its own (R263). -/
theorem step_finished (turn : s.enginesTurn) (finished : s.seq = .done ∨ s.seq = .error) :
    step s = .next s.takeTurn := by
  refine step_wait ((nextAction_engine turn).trans ?_)
  rcases finished with h | h <;> rw [State.engineAction, h]

/-- The Cleanup step releases everything and leaves the record of the failure, and Error stays (R227, R228). -/
theorem State.Failed.step (failed : s.Failed t) (turn : t.enginesTurn) (stepped : Machine.step t = .next r) :
    s.Failed r := by
  have inv := stepKeepsInvariant t r failed.inv stepped
  cases position : t.seq with
  | cleanup =>
    cases (cleanupStepReleasesAll t turn position).symm.trans stepped
    exact { failed with inv, failed := rfl, released := fun _ => rfl, output := { failed.output with } }
  | error =>
    cases (step_finished turn (.inr position)).symm.trans stepped
    exact { failed with inv, output := { failed.output with } }
  | idle | select | run | done => simpa [position, Seq.failed] using failed.failed

theorem State.RunPhase.engine_step (digits : 1 ≤ s.params.digitBit) (phase : s.RunPhase t) (turn : t.enginesTurn)
    (stepped : step t = .next r) : s.RunPhase r := by
  cases phase with
  | waits waits output =>
    obtain ⟨q, selected, -, run⟩ := waits.step turn
    cases selected.symm.trans stepped
    cases (step_atSelect turn waits.atSelect).symm.trans stepped
    exact .issues 0 _ run fun _ => { output with }
  | issues n c run output => exact run.next_phase digits output turn stepped
  | failed failed => exact .failed (failed.step turn stepped)
  | done done =>
    cases (step_finished turn (.inl done)).symm.trans stepped
    exact .done done

/-- Where no reset is to come, it is the engine's turn or the host's (R72). -/
theorem enginesTurn_or_host (noReset : Turn.reset ∉ s.turns) :
    s.enginesTurn ∨ ∃ tr rest, s.turns = .host tr :: rest := by
  cases turns : s.turns with
  | nil => exact .inl (.inl turns)
  | cons turn rest =>
    cases turn with
    | host tr => exact .inr ⟨tr, rest, rfl⟩
    | engine => exact .inl (.inr ⟨rest, turns⟩)
    | reset => exact absurd (turns ▸ List.mem_cons_self) noReset

/-- Each step keeps to the phases of the run, if the host takes its turns while the block is busy. -/
theorem State.RunPhase.step (digits : 1 ≤ s.params.digitBit) (phase : s.RunPhase t) (noReset : Turn.reset ∉ t.turns)
    (during : t.busy = true ∨ t.enginesTurn) (stepped : Machine.step t = .next r) : s.RunPhase r := by
  rcases enginesTurn_or_host noReset with turn | ⟨tr, rest, turns⟩
  · exact phase.engine_step digits turn stepped
  · have busy : t.busy = true := during.resolve_right (by rintro (h | ⟨_, h⟩) <;> cases turns.symm.trans h)
    obtain ⟨ie, bw, rd, dr, ran⟩ := exec_host_busy (decodeHost_isUop tr) (s := { t with turns := rest }) busy
    cases ((hostTurnRunsTransaction t tr rest turns).trans ran).symm.trans stepped
    exact phase.host ie bw rd dr rest

theorem State.RunPhase.reaches (digits : 1 ≤ s.params.digitBit) (phase : s.RunPhase t)
    (noReset : Turn.reset ∉ t.turns) (reached : Machine.reaches n t r)
    (during : ∀ m q, m < n → Machine.reaches m t q → q.busy = true ∨ q.enginesTurn) : s.RunPhase r := by
  induction n generalizing t with
  | zero => exact reaches_zero.1 reached ▸ phase
  | succ n ih =>
    obtain ⟨u, stepped, later⟩ := reaches_succ.1 reached
    refine ih (phase.step digits noReset (during 0 t n.succ_pos (reaches_zero.2 rfl)) stepped) ?_ later
      fun m q before reached' => during (m + 1) q (Nat.succ_lt_succ before) (reaches_succ.2 ⟨u, stepped, reached'⟩)
    rw [step_turns stepped]
    exact mt List.mem_of_mem_tail noReset

/-- Of the phases only a failed run is in Error. -/
theorem State.RunPhase.failed_of_error (phase : s.RunPhase t) (error : t.seq = .error) : s.Failed t := by
  cases phase with
  | failed failed => exact failed
  | waits waits => cases waits.atSelect.symm.trans error
  | issues n c run => cases run.position.symm.trans error
  | done done => cases done.symm.trans error

/-- Settles O58: a run that is in Error has failed, before EXCH, and the Cleanup step has released everything. -/
theorem failedRunLeavesOutput : Obligations.FailedRunLeavesOutput := by
  intro s t n start reached error during
  obtain ⟨-, -, digits, -⟩ := start.inv.params
  have begun : s.RunPhase s := .waits ⟨start.inv, start.atSelect, rfl, fun _ => rfl, rfl⟩ ⟨rfl, rfl⟩
  have failed := (begun.reaches digits start.noReset reached during).failed_of_error error
  have held : t.held = [] := failed.inv.released (by rw [error]; rfl)
  refine ⟨held, by rw [State.live, held]; rfl, failed.inv.errRecorded.trans failed.failed, failed.errUop,
    failed.released error, failed.window, ?_, failed.output.ylen, fun a => by rw [failed.output.mem]⟩
  simp [State.irq, State.finished, error]

end FailedRun

end Sys2Proof.Machine

/-! ## The reset event and the waiting positions (70_reset_and_hazards.md) -/

namespace Sys2Proof.Machine

/-- Settles O4: the step is the reset event, and `onReset` starts from `State.resetOf` whatever the block was doing. The scan
and the program that the statement leaves open are the model's reset values. -/
theorem resetEventStopsRun : Obligations.ResetEventStopsRun := by
  intro s rest turns
  have action : s.nextAction = .reset := by rw [State.nextAction, turns]
  have reset := step_reset action
  rw [State.takeTurn, turns] at reset
  exact ⟨ScanState.initial, [], reset⟩

/-- In Idle the engine has no step of its own (R263). -/
theorem step_idle {s : State} (turn : s.enginesTurn) (idle : s.seq = .idle) : step s = .next s.takeTurn :=
  step_wait ((nextAction_engine turn).trans (by rw [State.engineAction, idle]))

/-- Settles O9: in each of the three positions the step only takes the turn. -/
theorem waitingPositionsKeepState : Obligations.WaitingPositionsKeepState := by
  intro s turn position
  rcases position with idle | finished
  · exact step_idle turn idle
  · exact step_finished turn finished

end Sys2Proof.Machine
